-- ==== Sys2Proof/Word.lean ====
section
/-! DEFINITION. The machine's words (00_scope.md R8, R9): unsigned values of fixed widths, and the
explicit cuts to a width. -/

namespace Sys2Proof

/-- An 8-bit value: a V register, a timer, a memory cell. -/
abbrev Byte := BitVec 8

/-- A 16-bit value: PC, I, a return address, an instruction word. -/
abbrev Word := BitVec 16

/-- The 12-bit address field NNN. -/
abbrev Addr12 := BitVec 12

/-- The index of a V register (10_state.md R20). -/
abbrev VReg := Fin 16

/-- `trunc_8(v) = v mod 256` (R9). -/
def trunc8 (n : Nat) : Byte := BitVec.ofNat 8 n

/-- `trunc_16(v) = v mod 65536` (R9). -/
def trunc16 (n : Nat) : Word := BitVec.ofNat 16 n

end Sys2Proof
end

