-- ==== Sys2Proof/Machine/Flags.lean ====
section
/-! DEFINITION. The functions of `chip8_alu` (44_alu.md R150-R157). Each is computed on natural numbers
and cut to 8 bits at the end; a flag is a Boolean beside the result. -/

namespace Sys2Proof.Machine

/-- `add8` (R150). -/
def add8 (a b : Byte) : Byte := trunc8 (a.toNat + b.toNat)

/-- `addc8`: the sum and the carry (R151). -/
def addc8 (a b : Byte) : Byte × Bool :=
  let sum := a.toNat + b.toNat
  (trunc8 sum, decide (sum > 255))

/-- The result of `subnb8` (R152). -/
def sub8 (a b : Byte) : Byte := trunc8 (a.toNat + 256 - b.toNat)

/-- The strict not-borrow flag of `subnb8` (R152). -/
def notBorrow8 (a b : Byte) : Bool := decide (a.toNat > b.toNat)

/-- `subnb8` (R152). -/
def subnb8 (a b : Byte) : Byte × Bool := (sub8 a b, notBorrow8 a b)

/-- `or8` (R153). -/
def or8 (a b : Byte) : Byte := a ||| b

/-- `and8` (R153). -/
def and8 (a b : Byte) : Byte := a &&& b

/-- `xor8` (R153). -/
def xor8 (a b : Byte) : Byte := a ^^^ b

/-- `shr8`: the shifted value and bit 0 (R154). -/
def shr8 (a : Byte) : Byte × Bool := (a >>> 1, a.getLsbD 0)

/-- `shl8`: the shifted value and bit 7 (R155). -/
def shl8 (a : Byte) : Byte × Bool := (trunc8 (a.toNat * 2), a.getLsbD 7)

/-- `eq8` (R156). -/
def eq8 (a b : Byte) : Bool := decide (a = b)

end Sys2Proof.Machine
end

