-- ==== Sys2Proof/Syntax.lean ====
section
/-! DEFINITION. The instructions: one constructor per row of the opcode map (30_encoding.md R90), with the
operand fields of R81. A word outside the rows is no instruction (R86); it has no constructor and the step
treats it (60_exceptions.md R231). -/

namespace Sys2Proof

/-- The instruction set. `x`, `y` select V registers, `kk` is an immediate byte, `nnn` a 12-bit address,
`n` a row count (R82). -/
inductive Instr where
  /-- `00E0` CLS -/
  | cls
  /-- `00EE` RET -/
  | ret
  /-- `1NNN` JP nnn -/
  | jp (nnn : Addr12)
  /-- `2NNN` CALL nnn -/
  | call (nnn : Addr12)
  /-- `3XKK` SE Vx, kk -/
  | seImm (x : VReg) (kk : Byte)
  /-- `4XKK` SNE Vx, kk -/
  | sneImm (x : VReg) (kk : Byte)
  /-- `5XY0` SE Vx, Vy; the low nibble of the word is ignored (R88) -/
  | seReg (x y : VReg)
  /-- `6XKK` LD Vx, kk -/
  | ldImm (x : VReg) (kk : Byte)
  /-- `7XKK` ADD Vx, kk -/
  | addImm (x : VReg) (kk : Byte)
  /-- `8XY0` LD Vx, Vy -/
  | ldReg (x y : VReg)
  /-- `8XY1` OR Vx, Vy -/
  | orReg (x y : VReg)
  /-- `8XY2` AND Vx, Vy -/
  | andReg (x y : VReg)
  /-- `8XY3` XOR Vx, Vy -/
  | xorReg (x y : VReg)
  /-- `8XY4` ADD Vx, Vy -/
  | addReg (x y : VReg)
  /-- `8XY5` SUB Vx, Vy -/
  | sub (x y : VReg)
  /-- `8XY6` SHR Vx, Vy; Y is encoded and not read (R91) -/
  | shr (x y : VReg)
  /-- `8XY7` SUBN Vx, Vy -/
  | subn (x y : VReg)
  /-- `8XYE` SHL Vx, Vy; Y is encoded and not read (R91) -/
  | shl (x y : VReg)
  /-- `9XY0` SNE Vx, Vy; the low nibble of the word is ignored (R88) -/
  | sneReg (x y : VReg)
  /-- `ANNN` LD I, nnn -/
  | ldI (nnn : Addr12)
  /-- `BNNN` JP V0, nnn -/
  | jpV0 (nnn : Addr12)
  /-- `CXKK` RND Vx, kk -/
  | rnd (x : VReg) (kk : Byte)
  /-- `DXYN` DRW Vx, Vy, n -/
  | drw (x y : VReg) (n : Fin 16)
  /-- `EX9E` SKP Vx (FULL_SET) -/
  | skp (x : VReg)
  /-- `EXA1` SKNP Vx (FULL_SET) -/
  | sknp (x : VReg)
  /-- `FX07` LD Vx, DT (FULL_SET) -/
  | ldVxDt (x : VReg)
  /-- `FX0A` LD Vx, K (FULL_SET) -/
  | ldVxK (x : VReg)
  /-- `FX15` LD DT, Vx (FULL_SET) -/
  | ldDtVx (x : VReg)
  /-- `FX18` LD ST, Vx (FULL_SET) -/
  | ldStVx (x : VReg)
  /-- `FX1E` ADD I, Vx (FULL_SET) -/
  | addIVx (x : VReg)
  /-- `FX29` LD F, Vx (FULL_SET) -/
  | ldFVx (x : VReg)
  /-- `FX33` LD B, Vx (FULL_SET) -/
  | ldBVx (x : VReg)
  /-- `FX55` LD [I], Vx (FULL_SET) -/
  | storeRegs (x : VReg)
  /-- `FX65` LD Vx, [I] (FULL_SET) -/
  | loadRegs (x : VReg)
deriving DecidableEq, Repr

/-- The instructions that exist only in the configuration `FULL_SET` (00_scope.md R6, 46_ext_full.md
R200). -/
def Instr.isFullSet : Instr → Bool
  | .skp _ | .sknp _ | .ldVxDt _ | .ldVxK _ | .ldDtVx _ | .ldStVx _ | .addIVx _ | .ldFVx _
  | .ldBVx _ | .storeRegs _ | .loadRegs _ => true
  | .cls | .ret | .jp _ | .call _ | .seImm _ _ | .sneImm _ _ | .seReg _ _ | .ldImm _ _
  | .addImm _ _ | .ldReg _ _ | .orReg _ _ | .andReg _ _ | .xorReg _ _ | .addReg _ _ | .sub _ _
  | .shr _ _ | .subn _ _ | .shl _ _ | .sneReg _ _ | .ldI _ | .jpV0 _ | .rnd _ _
  | .drw _ _ _ => false

/-- The row of the opcode table an instruction belongs to, by the table's mnemonic. -/
def Instr.mnemonic : Instr → String
  | .cls => "CLS"
  | .ret => "RET"
  | .jp _ => "JP_nnn"
  | .call _ => "CALL_nnn"
  | .seImm _ _ => "SE_Vx__kk"
  | .sneImm _ _ => "SNE_Vx__kk"
  | .seReg _ _ => "SE_Vx__Vy"
  | .ldImm _ _ => "LD_Vx__kk"
  | .addImm _ _ => "ADD_Vx__kk"
  | .ldReg _ _ => "LD_Vx__Vy"
  | .orReg _ _ => "OR_Vx__Vy"
  | .andReg _ _ => "AND_Vx__Vy"
  | .xorReg _ _ => "XOR_Vx__Vy"
  | .addReg _ _ => "ADD_Vx__Vy"
  | .sub _ _ => "SUB_Vx__Vy"
  | .shr _ _ => "SHR_Vx__Vy"
  | .subn _ _ => "SUBN_Vx__Vy"
  | .shl _ _ => "SHL_Vx__Vy"
  | .sneReg _ _ => "SNE_Vx__Vy"
  | .ldI _ => "LD_I__nnn"
  | .jpV0 _ => "JP_V0__nnn"
  | .rnd _ _ => "RND_Vx__kk"
  | .drw _ _ _ => "DRW_Vx__Vy__n"
  | .skp _ => "SKP_Vx"
  | .sknp _ => "SKNP_Vx"
  | .ldVxDt _ => "LD_Vx__DT"
  | .ldVxK _ => "LD_Vx__K"
  | .ldDtVx _ => "LD_DT__Vx"
  | .ldStVx _ => "LD_ST__Vx"
  | .addIVx _ => "ADD_I__Vx"
  | .ldFVx _ => "LD_F__Vx"
  | .ldBVx _ => "LD_B__Vx"
  | .storeRegs _ => "LD__I___Vx"
  | .loadRegs _ => "LD_Vx___I"

/-- Why a word is not decoded. There is one reason: it matches no row of the opcode map in the present
configuration (30_encoding.md R86). -/
inductive DecodeError where
  /-- Raised by `decode`; the step reports it and skips the word (60_exceptions.md R231). Safe: it is the
  spec's own outcome for the word. -/
  | unknownOpcode (w : Word)
deriving DecidableEq, Repr

/-- One row of the opcode map (30_encoding.md R90): a word `w` matches it when
`(w AND mask) = code`. -/
structure OpcodeRow where
  mnemonic : String
  code : Word
  mask : Word
  /-- The row is enabled only with `FULL_SET`. -/
  fullSetOnly : Bool
deriving DecidableEq, Repr

end Sys2Proof
end

