-- ==== Sys2Proof/WellFormed.lean ====
section
/-! DEFINITION. Which instructions are well-formed. The operand types already hold every field to its
width (30_encoding.md R81), so the one check left is the configuration's (00_scope.md R6). -/

namespace Sys2Proof

/-- An instruction exists in a configuration when it is of the base set or `FULL_SET` is on (R6, R12). -/
def wellFormed (fullSet : Bool) (i : Instr) : Bool := fullSet || !i.isFullSet

end Sys2Proof
end

