-- ==== Sys2Proof/Decode.lean ====
section
/-! DEFINITION. The decoder (30_encoding.md R80-R90), total on every word, and the encoder, both written
from the spec's patterns. -/

namespace Sys2Proof

/-! ## Fields of a word (R81) -/

/-- class = `w[15:12]`. -/
def fieldClass (w : Word) : BitVec 4 := w.extractLsb' 12 4

/-- X = `w[11:8]`. -/
def fieldX (w : Word) : VReg := (w.extractLsb' 8 4).toFin

/-- Y = `w[7:4]`. -/
def fieldY (w : Word) : VReg := (w.extractLsb' 4 4).toFin

/-- N = `w[3:0]`. -/
def fieldN (w : Word) : Fin 16 := (w.extractLsb' 0 4).toFin

/-- KK = `w[7:0]`. -/
def fieldKK (w : Word) : Byte := w.extractLsb' 0 8

/-- NNN = `w[11:0]`. -/
def fieldNNN (w : Word) : Addr12 := w.extractLsb' 0 12

/-! ## Decode (R85) -/

/-- Class 0x0 is matched on the whole word (R89). -/
def decodeClass0 (w : Word) : Except DecodeError Instr :=
  if w = 0x00E0#16 then .ok .cls
  else if w = 0x00EE#16 then .ok .ret
  else .error (.unknownOpcode w)

/-- Class 0x8 is selected by N (R84). -/
def decodeClass8 (w : Word) : Except DecodeError Instr :=
  let x := fieldX w
  let y := fieldY w
  match (fieldN w).val with
  | 0x0 => .ok (.ldReg x y)
  | 0x1 => .ok (.orReg x y)
  | 0x2 => .ok (.andReg x y)
  | 0x3 => .ok (.xorReg x y)
  | 0x4 => .ok (.addReg x y)
  | 0x5 => .ok (.sub x y)
  | 0x6 => .ok (.shr x y)
  | 0x7 => .ok (.subn x y)
  | 0xE => .ok (.shl x y)
  | _ => .error (.unknownOpcode w)

/-- Class 0xE is selected by KK, with `FULL_SET` only (R84, 46_ext_full.md R200). -/
def decodeClassE (fullSet : Bool) (w : Word) : Except DecodeError Instr :=
  let x := fieldX w
  if !fullSet then .error (.unknownOpcode w)
  else match (fieldKK w).toNat with
  | 0x9E => .ok (.skp x)
  | 0xA1 => .ok (.sknp x)
  | _ => .error (.unknownOpcode w)

/-- Class 0xF is selected by KK, with `FULL_SET` only (R84, 46_ext_full.md R200). -/
def decodeClassF (fullSet : Bool) (w : Word) : Except DecodeError Instr :=
  let x := fieldX w
  if !fullSet then .error (.unknownOpcode w)
  else match (fieldKK w).toNat with
  | 0x07 => .ok (.ldVxDt x)
  | 0x0A => .ok (.ldVxK x)
  | 0x15 => .ok (.ldDtVx x)
  | 0x18 => .ok (.ldStVx x)
  | 0x1E => .ok (.addIVx x)
  | 0x29 => .ok (.ldFVx x)
  | 0x33 => .ok (.ldBVx x)
  | 0x55 => .ok (.storeRegs x)
  | 0x65 => .ok (.loadRegs x)
  | _ => .error (.unknownOpcode w)

/-- The decode function of R85. Classes 0x5 and 0x9 do not look at N (R88). -/
def decode (fullSet : Bool) (w : Word) : Except DecodeError Instr :=
  match (fieldClass w).toNat with
  | 0x0 => decodeClass0 w
  | 0x1 => .ok (.jp (fieldNNN w))
  | 0x2 => .ok (.call (fieldNNN w))
  | 0x3 => .ok (.seImm (fieldX w) (fieldKK w))
  | 0x4 => .ok (.sneImm (fieldX w) (fieldKK w))
  | 0x5 => .ok (.seReg (fieldX w) (fieldY w))
  | 0x6 => .ok (.ldImm (fieldX w) (fieldKK w))
  | 0x7 => .ok (.addImm (fieldX w) (fieldKK w))
  | 0x8 => decodeClass8 w
  | 0x9 => .ok (.sneReg (fieldX w) (fieldY w))
  | 0xA => .ok (.ldI (fieldNNN w))
  | 0xB => .ok (.jpV0 (fieldNNN w))
  | 0xC => .ok (.rnd (fieldX w) (fieldKK w))
  | 0xD => .ok (.drw (fieldX w) (fieldY w) (fieldN w))
  | 0xE => decodeClassE fullSet w
  | _ => decodeClassF fullSet w

/-- An instruction word is big-endian: the byte at the lower address is bits 15..8 (20_memory.md R64). -/
def wordOfBytes (hi lo : Byte) : Word := hi ++ lo

/-- The high byte of a word, the one at the lower address (20_memory.md R64). -/
def highByte (w : Word) : Byte := w.extractLsb' 8 8

/-- The low byte of a word. -/
def lowByte (w : Word) : Byte := w.extractLsb' 0 8

/-- The decoder on the two bytes of an instruction as memory holds them. -/
def decodeBytes (fullSet : Bool) (hi lo : Byte) : Except DecodeError Instr :=
  decode fullSet (wordOfBytes hi lo)

/-! ## Encode (R90) -/

/-- A word of the format `cXKK`. -/
def wordXKK (c : BitVec 4) (x : VReg) (kk : Byte) : Word := c ++ BitVec.ofFin (w := 4) x ++ kk

/-- A word of the format `cXYn`. -/
def wordXYN (c : BitVec 4) (x y : VReg) (n : BitVec 4) : Word :=
  c ++ BitVec.ofFin (w := 4) x ++ BitVec.ofFin (w := 4) y ++ n

/-- A word of the format `cNNN`. -/
def wordNNN (c : BitVec 4) (nnn : Addr12) : Word := c ++ nnn

/-- The word of an instruction, from the patterns of R90. The rows `5XY0` and `9XY0` are written with
N = 0. -/
def encode : Instr → Word
  | .cls => 0x00E0#16
  | .ret => 0x00EE#16
  | .jp nnn => wordNNN 0x1#4 nnn
  | .call nnn => wordNNN 0x2#4 nnn
  | .seImm x kk => wordXKK 0x3#4 x kk
  | .sneImm x kk => wordXKK 0x4#4 x kk
  | .seReg x y => wordXYN 0x5#4 x y 0x0#4
  | .ldImm x kk => wordXKK 0x6#4 x kk
  | .addImm x kk => wordXKK 0x7#4 x kk
  | .ldReg x y => wordXYN 0x8#4 x y 0x0#4
  | .orReg x y => wordXYN 0x8#4 x y 0x1#4
  | .andReg x y => wordXYN 0x8#4 x y 0x2#4
  | .xorReg x y => wordXYN 0x8#4 x y 0x3#4
  | .addReg x y => wordXYN 0x8#4 x y 0x4#4
  | .sub x y => wordXYN 0x8#4 x y 0x5#4
  | .shr x y => wordXYN 0x8#4 x y 0x6#4
  | .subn x y => wordXYN 0x8#4 x y 0x7#4
  | .shl x y => wordXYN 0x8#4 x y 0xE#4
  | .sneReg x y => wordXYN 0x9#4 x y 0x0#4
  | .ldI nnn => wordNNN 0xA#4 nnn
  | .jpV0 nnn => wordNNN 0xB#4 nnn
  | .rnd x kk => wordXKK 0xC#4 x kk
  | .drw x y n => wordXYN 0xD#4 x y (BitVec.ofFin (w := 4) n)
  | .skp x => wordXKK 0xE#4 x 0x9E#8
  | .sknp x => wordXKK 0xE#4 x 0xA1#8
  | .ldVxDt x => wordXKK 0xF#4 x 0x07#8
  | .ldVxK x => wordXKK 0xF#4 x 0x0A#8
  | .ldDtVx x => wordXKK 0xF#4 x 0x15#8
  | .ldStVx x => wordXKK 0xF#4 x 0x18#8
  | .addIVx x => wordXKK 0xF#4 x 0x1E#8
  | .ldFVx x => wordXKK 0xF#4 x 0x29#8
  | .ldBVx x => wordXKK 0xF#4 x 0x33#8
  | .storeRegs x => wordXKK 0xF#4 x 0x55#8
  | .loadRegs x => wordXKK 0xF#4 x 0x65#8

/-! ## The opcode map as data (R90) -/

/-- The rows of the base configuration. -/
def opcodeMapBase : List OpcodeRow :=
  [⟨"CLS", 0x00E0, 0xFFFF, false⟩, ⟨"RET", 0x00EE, 0xFFFF, false⟩,
   ⟨"JP_nnn", 0x1000, 0xF000, false⟩, ⟨"CALL_nnn", 0x2000, 0xF000, false⟩,
   ⟨"SE_Vx__kk", 0x3000, 0xF000, false⟩, ⟨"SNE_Vx__kk", 0x4000, 0xF000, false⟩,
   ⟨"SE_Vx__Vy", 0x5000, 0xF000, false⟩, ⟨"LD_Vx__kk", 0x6000, 0xF000, false⟩,
   ⟨"ADD_Vx__kk", 0x7000, 0xF000, false⟩] ++
  [⟨"LD_Vx__Vy", 0x8000, 0xF00F, false⟩, ⟨"OR_Vx__Vy", 0x8001, 0xF00F, false⟩,
   ⟨"AND_Vx__Vy", 0x8002, 0xF00F, false⟩, ⟨"XOR_Vx__Vy", 0x8003, 0xF00F, false⟩,
   ⟨"ADD_Vx__Vy", 0x8004, 0xF00F, false⟩, ⟨"SUB_Vx__Vy", 0x8005, 0xF00F, false⟩,
   ⟨"SHR_Vx__Vy", 0x8006, 0xF00F, false⟩, ⟨"SUBN_Vx__Vy", 0x8007, 0xF00F, false⟩,
   ⟨"SHL_Vx__Vy", 0x800E, 0xF00F, false⟩] ++
  [⟨"SNE_Vx__Vy", 0x9000, 0xF000, false⟩, ⟨"LD_I__nnn", 0xA000, 0xF000, false⟩,
   ⟨"JP_V0__nnn", 0xB000, 0xF000, false⟩, ⟨"RND_Vx__kk", 0xC000, 0xF000, false⟩,
   ⟨"DRW_Vx__Vy__n", 0xD000, 0xF000, false⟩]

/-- The rows that `FULL_SET` adds. -/
def opcodeMapFullSet : List OpcodeRow :=
  [⟨"SKP_Vx", 0xE09E, 0xF0FF, true⟩, ⟨"SKNP_Vx", 0xE0A1, 0xF0FF, true⟩,
   ⟨"LD_Vx__DT", 0xF007, 0xF0FF, true⟩, ⟨"LD_Vx__K", 0xF00A, 0xF0FF, true⟩,
   ⟨"LD_DT__Vx", 0xF015, 0xF0FF, true⟩, ⟨"LD_ST__Vx", 0xF018, 0xF0FF, true⟩,
   ⟨"ADD_I__Vx", 0xF01E, 0xF0FF, true⟩, ⟨"LD_F__Vx", 0xF029, 0xF0FF, true⟩,
   ⟨"LD_B__Vx", 0xF033, 0xF0FF, true⟩, ⟨"LD__I___Vx", 0xF055, 0xF0FF, true⟩,
   ⟨"LD_Vx___I", 0xF065, 0xF0FF, true⟩]

/-- The opcode map. -/
def opcodeMap : List OpcodeRow := opcodeMapBase ++ opcodeMapFullSet

/-- Whether a row is enabled in a configuration (R90). -/
def OpcodeRow.enabled (fullSet : Bool) (r : OpcodeRow) : Bool := fullSet || !r.fullSetOnly

/-- Whether a word matches a row (R90). -/
def OpcodeRow.matchesWord (r : OpcodeRow) (w : Word) : Bool := w &&& r.mask == r.code

/-! ## The host's view of the table -/

/-- The instruction word of a table row: the first 16 bits of `w`, of which bits at and above `nbits`
are 0. -/
def tableWord (nbits w : Nat) : Word := BitVec.ofNat 16 (w % 2 ^ nbits)

/-- What the decoder reads from the bytes of a table row's word, with `FULL_SET` on, since the table
holds the rows of both configurations (log entry 1). -/
def decodeTableWord (nbits w : Nat) : Option Instr :=
  (decodeBytes true (highByte (tableWord nbits w)) (lowByte (tableWord nbits w))).toOption

/-- Whether a word is an instruction with `FULL_SET` and UNKNOWN without it. -/
def needsFullSet (w : Word) : Bool := (decode true w).toBool && !(decode false w).toBool

end Sys2Proof
end

