-- ==== Sys2Proof/Config.lean ====
section
/-! DEFINITION. The parameters of the hardware (00_scope.md R7) and the one free value (43_load_imm.md
R143). -/

namespace Sys2Proof

namespace Config

/-- `MEM_SIZE` (R7). -/
def memSize : Nat := 4096

/-- `PROG_BASE` (R7): where LOAD copies to and where PC stands after RESET. -/
def progBase : Nat := 0x200

/-- `MAX_PROG_LEN` (R7): the longest program LOAD accepts. -/
def maxProgLen : Nat := memSize - progBase

/-- `STACK_DEPTH` (R7). -/
def stackDepth : Nat := 16

/-- `FB_W` (R7): pixels of one line. -/
def fbWidth : Nat := 64

/-- `FB_H` (R7): lines of the framebuffer. -/
def fbHeight : Nat := 32

/-- `FONT_BASE` (R7). -/
def fontBase : Nat := 0x050

/-- The free value: the random byte of a STEP for which no byte was supplied. It has no body, so it may
be any byte at every STEP (R143, log entry 3). -/
opaque freeRand8 : Nat → Byte

end Config

/-- The font table: 16 glyphs of 5 rows (20_memory.md R63). -/
abbrev Font := Vector Byte 80

/-- Glyphs 0 to 7 of the conventional font (20_memory.md R63). -/
def Config.fontGlyphs0To7 : Vector Byte 40 :=
  #v[0xF0, 0x90, 0x90, 0x90, 0xF0,  0x20, 0x60, 0x20, 0x20, 0x70,
     0xF0, 0x10, 0xF0, 0x80, 0xF0,  0xF0, 0x10, 0xF0, 0x10, 0xF0,
     0x90, 0x90, 0xF0, 0x10, 0x10,  0xF0, 0x80, 0xF0, 0x10, 0xF0,
     0xF0, 0x80, 0xF0, 0x90, 0xF0,  0xF0, 0x10, 0x20, 0x40, 0x40]

/-- Glyphs 8 to F of the conventional font (20_memory.md R63). -/
def Config.fontGlyphs8ToF : Vector Byte 40 :=
  #v[0xF0, 0x90, 0xF0, 0x90, 0xF0,  0xF0, 0x90, 0xF0, 0x10, 0xF0,
     0xF0, 0x90, 0xF0, 0x90, 0x90,  0xE0, 0x90, 0xE0, 0x90, 0xE0,
     0xF0, 0x80, 0x80, 0x80, 0xF0,  0xE0, 0x90, 0x90, 0x90, 0xE0,
     0xF0, 0x80, 0xF0, 0x80, 0xF0,  0xF0, 0x80, 0xF0, 0x80, 0x80]

/-- The conventional font, the default of R63.
PRESUMED (log entry 2): the spec takes these bytes from general knowledge. -/
def Config.conventionalFont : Font := Config.fontGlyphs0To7 ++ Config.fontGlyphs8ToF

/-- The two parameters whose value the spec leaves to the user of the hardware: `FULL_SET` (R6) and
`FONT` (R7, 20_memory.md R63). State holds them, so a statement about every state holds for every value
of them. No step and no transaction changes them. -/
structure Params where
  /-- `FULL_SET`: whether the eleven instructions of 46_ext_full.md are decoded. -/
  fullSet : Bool
  /-- `FONT`: the bytes RESET writes at `FONT_BASE`. -/
  font : Font
deriving DecidableEq, Repr

/-- The default values of R6 and R7. -/
def Params.default : Params := { fullSet := false, font := Config.conventionalFont }

end Sys2Proof
end

