-- ==== Sys2Proof/Machine/State.lean ====
section
/-! DEFINITION. The state of the block (10_state.md), as plain data, and the state after reset
(70_reset_and_hazards.md R271). -/

namespace Sys2Proof.Machine

/-- The fatal conditions (10_state.md R32, 60_exceptions.md R230). -/
inductive FatalKind where
  /-- The fetch of a STEP, when `PC + 1 >= 4096` (R233). -/
  | instructionFetchOutOfBounds
  /-- 2NNN with SP = 16 (R234). -/
  | stackOverflow
  /-- 00EE with SP = 0 (R235). -/
  | stackUnderflow
  /-- DXYN, FX33, FX55, FX65 with a data address above 0xFFF (R236). -/
  | dataAccessOutOfBounds
deriving DecidableEq, Repr

/-- `STATUS` (10_state.md R32). -/
inductive Status where
  | running
  | halted (kind : FatalKind)
deriving DecidableEq, Repr

/-- The non-fatal report `UnknownOpcode(w, pc)` (60_exceptions.md R231, R239). -/
structure Report where
  /-- The word that is no instruction. -/
  opcode : Word
  /-- The address it was fetched from. -/
  pc : Word
deriving DecidableEq, Repr

/-- The result record `(tone, report, fatal)` of a STEP (10_state.md R51). -/
structure StepResult where
  tone : Bool
  report : Option Report
  fatal : Option FatalKind
deriving DecidableEq, Repr

/-- Why a step would stop with a fault. There is no reason: every condition of 60_exceptions.md R230 is a
report or sets STATUS, after which a STEP still answers (40_cycle.md R101), so it is a next state (log
entry 6). Nobody raises one; safe. -/
inductive Fault : Type
deriving DecidableEq, Repr

/-- Why a step would have no meaning. -/
inductive Refusal where
  /-- Raised only by an arm of `exec` whose instruction has no meaning yet; no arm raises it. Safe: the
  model stops where the hardware goes on. -/
  | notModelled (mnemonic : String)
deriving DecidableEq, Repr

/-- Memory: the cells that differ from the reset contents, addresses strictly rising
(20_memory.md R60, log entry 5). -/
abbrev Memory := List Host.Cell

/-- The framebuffer: 32 lines of 64 pixels; cell `FB[k]` is bit `k mod 64` of line `k div 64`
(10_state.md R30, log entry 11). -/
abbrev Framebuffer := Vector (BitVec 64) 32

/-- Everything the spec gives the block, its two parameters, and the model's own fields for the STEP's
input and output. -/
structure State where
  /-- V0-VF (R20). -/
  v : Vector Byte 16
  /-- The index register I (R22). -/
  i : Word
  /-- The program counter (R23). -/
  pc : Word
  /-- The return-address stack (R25). -/
  stack : Vector Word 16
  /-- The number of occupied stack slots, 0 to 16 (R26). -/
  sp : Fin 17
  /-- The delay timer (R28). -/
  dt : Byte
  /-- The sound timer (R29). -/
  st : Byte
  /-- The framebuffer (R30). -/
  fb : Framebuffer
  /-- DRAW_PENDING (R31). -/
  drawPending : Bool
  /-- STATUS (R32). -/
  status : Status
  /-- The key state, `true` = pressed (R33). -/
  keys : Vector Bool 16
  /-- MEM (R34). -/
  mem : Memory
  /-- FULL_SET and FONT (00_scope.md R6, R7); nothing changes them. -/
  params : Params
  /-- The model's own: the `rand8` inputs of the coming STEPs, as far as they are supplied (R35, R50;
  log entry 3). -/
  randIn : List Byte
  /-- The model's own: the number of STEPs taken, which the free value is applied to when `randIn` is
  empty (log entry 3). -/
  randCount : Nat
  /-- The model's own: the result of the last STEP (R51, log entry 4). -/
  out : StepResult
deriving DecidableEq, Repr

/-- The state after RESET (R271) with the default parameters (00_scope.md R6, R7). Memory lists nothing:
it holds the reset contents. DESIGN CHOICE (log entries 3 and 4): the last three fields. -/
def State.reset : State where
  v := Vector.replicate 16 0
  i := 0
  pc := 0x200
  stack := Vector.replicate 16 0
  sp := 0
  dt := 0
  st := 0
  fb := Vector.replicate 32 0
  drawPending := false
  status := .running
  keys := Vector.replicate 16 false
  mem := []
  params := Params.default
  randIn := []
  randCount := 0
  out := { tone := false, report := none, fatal := none }

end Sys2Proof.Machine
end

