-- ==== Sys2Proof/Machine/Ops.lean ====
section
/-! DEFINITION. The named operations over memory, registers, stack, framebuffer, timers and STATUS that
the meanings and the step share. -/

namespace Sys2Proof.Machine

/-! ## Memory (20_memory.md) -/

/-- What an unlisted address reads as: the reset contents, FONT at `FONT_BASE` and 0 elsewhere (R62,
70_reset_and_hazards.md R271; log entry 5). -/
def Memory.unlisted (font : Font) (a : Nat) : Byte :=
  if h : Config.fontBase ≤ a ∧ a < Config.fontBase + 80 then font[a - Config.fontBase]'(by omega)
  else 0

/-- The byte listed for an address, if any. -/
def Memory.lookup (a : Nat) : Memory → Option Byte
  | [] => none
  | c :: m => if c.1 = a then some c.2 else Memory.lookup a m

/-- `MEM[a]` (R66). -/
def Memory.read (font : Font) (m : Memory) (a : Nat) : Byte :=
  (Memory.lookup a m).getD (Memory.unlisted font a)

/-- List a byte for an address, at its place in the rising order. -/
def Memory.put (a : Nat) (b : Byte) : Memory → Memory
  | [] => [(a, b)]
  | c :: m =>
    if a < c.1 then (a, b) :: c :: m
    else if a = c.1 then (a, b) :: m
    else c :: Memory.put a b m

/-- Take an address off the list. -/
def Memory.drop (a : Nat) (m : Memory) : Memory := m.filter fun c => c.1 ≠ a

/-- `MEM[a] <- b` (R66), keeping the canonical form: the reset contents are not listed. -/
def Memory.write (font : Font) (m : Memory) (a : Nat) (b : Byte) : Memory :=
  if b = Memory.unlisted font a then Memory.drop a m else Memory.put a b m

/-- Bytes written at rising addresses from `a`, in order. -/
def Memory.writeList (font : Font) (m : Memory) (a : Nat) : List Byte → Memory
  | [] => m
  | b :: bs => Memory.writeList font (Memory.write font m a b) (a + 1) bs

/-- The canonical form: addresses strictly rising and inside 0x000-0xFFF, and no entry equal to what an
unlisted address reads as. -/
abbrev Memory.wf (font : Font) (m : Memory) : Prop :=
  m.Pairwise (fun c d => c.1 < d.1) ∧
    ∀ c ∈ m, c.1 < Config.memSize ∧ c.2 ≠ Memory.unlisted font c.1

/-- `MemRead(a, 1)` (00_scope.md R10). -/
def State.readByte (s : State) (a : Nat) : Byte := Memory.read s.params.font s.mem a

/-- `MemWrite(a, 1, b)` (00_scope.md R10). Every caller checks `a <= 0xFFF` first (R66). -/
def State.writeByte (s : State) (a : Nat) (b : Byte) : State :=
  { s with mem := Memory.write s.params.font s.mem a b }

/-- One-byte writes at rising addresses from `a`. -/
def State.writeBytes (s : State) (a : Nat) (bs : List Byte) : State :=
  { s with mem := Memory.writeList s.params.font s.mem a bs }

/-- The instruction word at PC, big-endian (R64, 40_cycle.md R103). -/
def State.fetchWord (s : State) : Word :=
  wordOfBytes (s.readByte s.pc.toNat) (s.readByte (s.pc.toNat + 1))

/-- The fetch bound fails: `PC + 1 >= 4096`, computed without wrap (40_cycle.md R102). -/
def State.fetchOutOfBounds (s : State) : Bool := decide (s.pc.toNat + 1 ≥ Config.memSize)

/-! ## register_file (10_state.md R20-R24) -/

/-- The index of VF, the flag register (R21). -/
def vf : VReg := 15

/-- Read `V[x]`. -/
def State.V (s : State) (x : VReg) : Byte := s.v[x.val]

/-- Write `V[x]`. -/
def State.setV (s : State) (x : VReg) (b : Byte) : State := { s with v := s.v.set x.val b }

/-- A Boolean written to an 8-bit register is the value 1 or 0 (00_scope.md R9). -/
def flagByte (f : Bool) : Byte := if f then 1 else 0

/-- Write VF as a flag (R21). -/
def State.setFlag (s : State) (f : Bool) : State := s.setV vf (flagByte f)

/-- Write I. -/
def State.setI (s : State) (a : Word) : State := { s with i := a }

/-- Write PC. -/
def State.setPc (s : State) (a : Word) : State := { s with pc := a }

/-- The default advance `PC <- pc0 + 2` (40_cycle.md R105), as `trunc_16` of the sum (R24). -/
def State.advance (s : State) : State := s.setPc (trunc16 (s.pc.toNat + 2))

/-- A conditional skip: `PC <- pc0 + 4` when taken, else `pc0 + 2` (40_cycle.md R105, 42_skip.md R134). -/
def State.skipIf (s : State) (taken : Bool) : State :=
  s.setPc (trunc16 (s.pc.toNat + if taken then 4 else 2))

/-! ## Fatal conditions and reports (60_exceptions.md)

The block has no trap entry: nothing is saved and no handler exists, and no instruction returns from a
condition (R242). RESET alone leaves HALTED (70_reset_and_hazards.md R277; Machine/Transactions.lean). -/

/-- `raise Fatal(k)`: STATUS becomes `HALTED(k)` and nothing else changes (R232). -/
def State.raiseFatal (s : State) (k : FatalKind) : State := { s with status := .halted k }

/-- The fault codes of R230. -/
def FatalKind.code : FatalKind → Nat
  | .instructionFetchOutOfBounds => 1
  | .stackOverflow => 2
  | .stackUnderflow => 3
  | .dataAccessOutOfBounds => 4

/-- The fault code of a STATUS; 0 means RUNNING (R230). -/
def Status.code : Status → Nat
  | .running => 0
  | .halted k => k.code

/-- The execution of a word that is no instruction: PC advances by 2 and nothing else changes (R231). The
report is an output of the step (R239). -/
def State.skipUnknown (s : State) : State := s.advance

/-! ## call_stack (10_state.md R25-R27) -/

/-- A push is StackOverflow (R26). -/
def State.stackFull (s : State) : Bool := decide (s.sp.val = Config.stackDepth)

/-- A pop is StackUnderflow (R26). -/
def State.stackEmpty (s : State) : Bool := decide (s.sp.val = 0)

/-- `STACK[SP] <- a; SP <- SP + 1` (41_flow.md R122). The caller has checked that the stack is not full. -/
def State.push (s : State) (a : Word) : State :=
  if h : s.sp.val < 16 then
    { s with stack := s.stack.set s.sp.val a, sp := ⟨s.sp.val + 1, by omega⟩ }
  else s

/-- `STACK[SP - 1]`, the address the next pop answers (R26). -/
def State.top (s : State) : Word :=
  if h : 0 < s.sp.val then s.stack[s.sp.val - 1]'(by omega) else 0

/-- `SP <- SP - 1; STACK[SP] <- 0` (41_flow.md R120). The caller has checked that the stack is not empty. -/
def State.pop (s : State) : State :=
  if h : 0 < s.sp.val then
    { s with stack := s.stack.set (s.sp.val - 1) 0 (by omega), sp := ⟨s.sp.val - 1, by omega⟩ }
  else s

/-! ## sprite_xor_blit_engine (10_state.md R30-R31) -/

/-- The cell of pixel (x, y): `y * 64 + x` (R30). -/
def pixelIndex (x y : Nat) : Nat := y * Config.fbWidth + x

/-- `FB[k]`. -/
def Framebuffer.get (fb : Framebuffer) (k : Nat) : Bool :=
  if h : k / 64 < 32 then (fb[k / 64]).getLsbD (k % 64) else false

/-- `FB[k] <- FB[k] XOR 1`. -/
def Framebuffer.toggle (fb : Framebuffer) (k : Nat) : Framebuffer :=
  if h : k / 64 < 32 then fb.set (k / 64) (fb[k / 64] ^^^ BitVec.twoPow 64 (k % 64)) else fb

/-- The framebuffer with every cell 0. -/
def Framebuffer.clear : Framebuffer := Vector.replicate 32 0

/-- Pixel (x, y) of the state's framebuffer. -/
def State.pixel (s : State) (x y : Nat) : Bool := Framebuffer.get s.fb (pixelIndex x y)

/-- Write the framebuffer and set DRAW_PENDING (R31, 45_display.md R180, R184). -/
def State.present (s : State) (fb : Framebuffer) : State := { s with fb := fb, drawPending := true }

/-! ## timer_countdown_unit (60_exceptions.md R245-R248) -/

/-- One timer at the tick: down by 1 when above 0, and 0 stays 0 (R245). -/
def countdown (t : Byte) : Byte := if t = 0 then 0 else trunc8 (t.toNat - 1)

/-- `tone`: the sound timer is above 0 at the tick (R246). -/
def State.tone (s : State) : Bool := decide (s.st ≠ 0)

/-- The tick of both timers (R245, R246). -/
def State.tick (s : State) : State := { s with dt := countdown s.dt, st := countdown s.st }

/-! ## The STEP's input and result (10_state.md R35, R51) -/

/-- `rand8`, the random byte of this STEP: the supplied one, else a free byte (43_load_imm.md R143, log
entry 3). -/
def State.rand8 (s : State) : Byte := s.randIn.headD (Config.freeRand8 s.randCount)

/-- The STEP has used its `rand8` input, whether the instruction read it or not. -/
def State.consumeRand8 (s : State) : State :=
  { s with randIn := s.randIn.tail, randCount := s.randCount + 1 }

/-- The result of the STEP. -/
def State.setOut (s : State) (r : StepResult) : State := { s with out := r }

/-- The end of a STEP (40_cycle.md R100, R108, R109): a running block ticks and reports `tone`; a halted
one does not tick and answers `fatal`. -/
def State.finish (s : State) (report : Option Report) : State :=
  match s.status with
  | .running => (s.tick.consumeRand8).setOut { tone := s.tone, report := report, fatal := none }
  | .halted k => s.consumeRand8.setOut { tone := false, report := none, fatal := some k }

end Sys2Proof.Machine
end

