-- ==== Sys2Proof/Machine/Operands.lean ====
section
/-! DEFINITION. The operand forms (30_encoding.md R82): every operand is a V register, an immediate of the
word, or an address made from I or NNN. -/

namespace Sys2Proof.Machine

/-- `zext_16(NNN)` (R82). -/
def addressOperand (nnn : Addr12) : Word := trunc16 nnn.toNat

/-- `trunc_16(zext_16(NNN) + zext_16(V[0]))`, not masked to 12 bits (41_flow.md R123). -/
def State.offsetAddress (s : State) (nnn : Addr12) : Word := trunc16 (nnn.toNat + (s.V 0).toNat)

/-- `I + k`, the address of the k-th byte of a data access, computed without wrap (20_memory.md R67). -/
def State.dataAddress (s : State) (k : Nat) : Nat := s.i.toNat + k

/-- `I + last` is outside memory, so the access is DataAccessOutOfBounds (20_memory.md R67). -/
def State.dataOutOfBounds (s : State) (last : Nat) : Bool := decide (s.dataAddress last > 0xFFF)

/-- The key a register names: its low nibble (46_ext_full.md R201). -/
def State.keyIndex (s : State) (x : VReg) : Fin 16 := ⟨(s.V x).toNat % 16, by omega⟩

/-- `KEYS[k]`. -/
def State.keyPressed (s : State) (k : Fin 16) : Bool := s.keys[k.val]

/-- The least-numbered key that is pressed, if any (46_ext_full.md R204). -/
def State.leastPressedKey (s : State) : Option Nat := s.keys.toList.findIdx? (fun b => b)

/-- The address of the glyph a register names by its low nibble (46_ext_full.md R208). -/
def State.glyphAddress (s : State) (x : VReg) : Word :=
  trunc16 (Config.fontBase + 5 * ((s.V x).toNat % 16))

/-- The three decimal digits of a byte, the hundreds first (46_ext_full.md R209). -/
def bcdDigits (b : Byte) : List Byte :=
  [trunc8 (b.toNat / 100), trunc8 (b.toNat / 10 % 10), trunc8 (b.toNat % 10)]

/-- `V[0] .. V[x]` in order (46_ext_full.md R210). -/
def State.regsUpTo (s : State) (x : VReg) : List Byte := s.v.toList.take (x.val + 1)

/-- `V[k] <- MEM[I + k]` for every `k <= x`, the other registers as they are (46_ext_full.md R211). -/
def State.loadRegsUpTo (s : State) (x : VReg) : State :=
  { s with
    v := Vector.ofFn fun k : Fin 16 =>
      if k.val ≤ x.val then s.readByte (s.dataAddress k.val) else s.v[k.val] }

end Sys2Proof.Machine
end

