-- ==== Sys2Proof/Machine/Alu.lean ====
section
/-! DEFINITION. The register-register instructions (44_alu.md R158-R166). Statements take effect in the
written order and each read sees the earlier writes (00_scope.md R11), which decides the forms where X or
Y is F. -/

namespace Sys2Proof.Machine

/-- `8XY0` LD Vx, Vy (R158). -/
def execLdReg (x y : VReg) (s : State) : Host.Outcome State Fault Refusal :=
  .next (s.setV x (s.V y)).advance

/-- `8XY1` OR Vx, Vy (R159). -/
def execOrReg (x y : VReg) (s : State) : Host.Outcome State Fault Refusal :=
  .next (s.setV x (or8 (s.V x) (s.V y))).advance

/-- `8XY2` AND Vx, Vy (R160). -/
def execAndReg (x y : VReg) (s : State) : Host.Outcome State Fault Refusal :=
  .next (s.setV x (and8 (s.V x) (s.V y))).advance

/-- `8XY3` XOR Vx, Vy (R161). -/
def execXorReg (x y : VReg) (s : State) : Host.Outcome State Fault Refusal :=
  .next (s.setV x (xor8 (s.V x) (s.V y))).advance

/-- `8XY4` ADD Vx, Vy (R162): the sum is taken before VF is written. -/
def execAddReg (x y : VReg) (s : State) : Host.Outcome State Fault Refusal :=
  let sum := addc8 (s.V x) (s.V y)
  .next ((s.setFlag sum.2).setV x sum.1).advance

/-- `8XY5` SUB Vx, Vy (R163): the difference is taken after VF is written. -/
def execSub (x y : VReg) (s : State) : Host.Outcome State Fault Refusal :=
  let t := s.setFlag (notBorrow8 (s.V x) (s.V y))
  .next (t.setV x (sub8 (t.V x) (t.V y))).advance

/-- `8XY6` SHR Vx, Vy (R164): V[X] is shifted after VF is written; V[Y] is not read. -/
def execShr (x _y : VReg) (s : State) : Host.Outcome State Fault Refusal :=
  let t := s.setFlag (shr8 (s.V x)).2
  .next (t.setV x (shr8 (t.V x)).1).advance

/-- `8XY7` SUBN Vx, Vy (R165): the difference is taken after VF is written. -/
def execSubn (x y : VReg) (s : State) : Host.Outcome State Fault Refusal :=
  let t := s.setFlag (notBorrow8 (s.V y) (s.V x))
  .next (t.setV x (sub8 (t.V y) (t.V x))).advance

/-- `8XYE` SHL Vx, Vy (R166): V[X] is shifted after VF is written; V[Y] is not read. -/
def execShl (x _y : VReg) (s : State) : Host.Outcome State Fault Refusal :=
  let t := s.setFlag (shl8 (s.V x)).2
  .next (t.setV x (shl8 (t.V x)).1).advance

end Sys2Proof.Machine
end

