-- ==== Sys2Proof/Machine/Display.lean ====
section
/-! DEFINITION. The framebuffer instructions (45_display.md). -/

namespace Sys2Proof.Machine

/-- Bit `b` of a sprite row, counted from the left: bit `7 - b` of its byte (R183). -/
def spriteBit (byte : Byte) (b : Nat) : Bool := byte.getLsbD (7 - b)

/-- One sprite bit at column `x0 + b` of line `line`: a set bit toggles its pixel, and a pixel that was 1
is a collision, which stays once set (R181, R182, R187). -/
def plotBit (x0 line : Nat) (byte : Byte) (acc : Framebuffer × Bool) (b : Nat) :
    Framebuffer × Bool :=
  if spriteBit byte b then
    let k := pixelIndex ((x0 + b) % Config.fbWidth) (line % Config.fbHeight)
    (Framebuffer.toggle acc.1 k, acc.2 || Framebuffer.get acc.1 k)
  else acc

/-- The eight bits of one row, from the left (R183). -/
def plotRow (x0 line : Nat) (byte : Byte) (acc : Framebuffer × Bool) : Framebuffer × Bool :=
  (List.range 8).foldl (plotBit x0 line byte) acc

/-- The rows `0 .. n-1` of the sprite at I, drawn with their left top corner at (x0, y0): the framebuffer
after it, and whether a collision happened (R181). -/
def State.blit (s : State) (x0 y0 n : Nat) : Framebuffer × Bool :=
  (List.range n).foldl (fun acc r => plotRow x0 (y0 + r) (s.readByte (s.dataAddress r)) acc)
    (s.fb, false)

/-- `00E0` CLS (R180). -/
def execCls (s : State) : Host.Outcome State Fault Refusal :=
  .next (s.present Framebuffer.clear).advance

/-- `DXYN` DRW Vx, Vy, n (R181): the read bound is checked before any write (R186), and the coordinates
are read before VF is written. -/
def execDrw (x y : VReg) (n : Fin 16) (s : State) : Host.Outcome State Fault Refusal :=
  if n.val > 0 ∧ s.dataOutOfBounds (n.val - 1) then .next (s.raiseFatal .dataAccessOutOfBounds)
  else
    let drawn := s.blit ((s.V x).toNat % Config.fbWidth) ((s.V y).toNat % Config.fbHeight) n.val
    .next ((s.present drawn.1).setFlag drawn.2).advance

end Sys2Proof.Machine
end

