-- ==== Sys2Proof/Machine/ExtFull.lean ====
section
/-! DEFINITION. The instructions of the configuration `FULL_SET` (46_ext_full.md): keys, timers, index and
memory. -/

namespace Sys2Proof.Machine

/-- `EX9E` SKP Vx (R201). -/
def execSkp (x : VReg) (s : State) : Host.Outcome State Fault Refusal :=
  .next (s.skipIf (s.keyPressed (s.keyIndex x)))

/-- `EXA1` SKNP Vx (R202). -/
def execSknp (x : VReg) (s : State) : Host.Outcome State Fault Refusal :=
  .next (s.skipIf (!s.keyPressed (s.keyIndex x)))

/-- `FX07` LD Vx, DT (R203). -/
def execLdVxDt (x : VReg) (s : State) : Host.Outcome State Fault Refusal :=
  .next (s.setV x s.dt).advance

/-- `FX0A` LD Vx, K (R204): with no key pressed nothing changes, and the next STEP executes it again. -/
def execLdVxK (x : VReg) (s : State) : Host.Outcome State Fault Refusal :=
  match s.leastPressedKey with
  | some k => .next (s.setV x (trunc8 k)).advance
  | none => .next s

/-- `FX15` LD DT, Vx (R205); the tick of the same STEP follows. -/
def execLdDtVx (x : VReg) (s : State) : Host.Outcome State Fault Refusal :=
  .next { s.advance with dt := s.V x }

/-- `FX18` LD ST, Vx (R206); the tick of the same STEP follows. -/
def execLdStVx (x : VReg) (s : State) : Host.Outcome State Fault Refusal :=
  .next { s.advance with st := s.V x }

/-- `FX1E` ADD I, Vx (R207): no flag. -/
def execAddIVx (x : VReg) (s : State) : Host.Outcome State Fault Refusal :=
  .next (s.setI (trunc16 (s.i.toNat + (s.V x).toNat))).advance

/-- `FX29` LD F, Vx (R208). -/
def execLdFVx (x : VReg) (s : State) : Host.Outcome State Fault Refusal :=
  .next (s.setI (s.glyphAddress x)).advance

/-- `FX33` LD B, Vx (R209): the bound is checked before any write. -/
def execLdBVx (x : VReg) (s : State) : Host.Outcome State Fault Refusal :=
  if s.dataOutOfBounds 2 then .next (s.raiseFatal .dataAccessOutOfBounds)
  else .next (s.writeBytes (s.dataAddress 0) (bcdDigits (s.V x))).advance

/-- `FX55` LD [I], Vx (R210): the bound is checked before any write; I is unchanged. -/
def execStoreRegs (x : VReg) (s : State) : Host.Outcome State Fault Refusal :=
  if s.dataOutOfBounds x.val then .next (s.raiseFatal .dataAccessOutOfBounds)
  else .next (s.writeBytes (s.dataAddress 0) (s.regsUpTo x)).advance

/-- `FX65` LD Vx, [I] (R211): the bound is checked before any write; I is unchanged. -/
def execLoadRegs (x : VReg) (s : State) : Host.Outcome State Fault Refusal :=
  if s.dataOutOfBounds x.val then .next (s.raiseFatal .dataAccessOutOfBounds)
  else .next (s.loadRegsUpTo x).advance

end Sys2Proof.Machine
end

