-- ==== Sys2Proof/Machine/Flow.lean ====
section
/-! DEFINITION. Control transfer (41_flow.md). Targets are not validated; a bad one faults at the next
fetch. -/

namespace Sys2Proof.Machine

/-- `00EE` RET (R120). -/
def execRet (s : State) : Host.Outcome State Fault Refusal :=
  if s.stackEmpty then .next (s.raiseFatal .stackUnderflow)
  else .next (s.pop.setPc s.top)

/-- `1NNN` JP nnn (R121). -/
def execJp (nnn : Addr12) (s : State) : Host.Outcome State Fault Refusal :=
  .next (s.setPc (addressOperand nnn))

/-- `2NNN` CALL nnn (R122): `pc0 + 2` is pushed. -/
def execCall (nnn : Addr12) (s : State) : Host.Outcome State Fault Refusal :=
  if s.stackFull then .next (s.raiseFatal .stackOverflow)
  else .next ((s.push (trunc16 (s.pc.toNat + 2))).setPc (addressOperand nnn))

/-- `BNNN` JP V0, nnn (R123). -/
def execJpV0 (nnn : Addr12) (s : State) : Host.Outcome State Fault Refusal :=
  .next (s.setPc (s.offsetAddress nnn))

end Sys2Proof.Machine
end

