-- ==== Sys2Proof/Machine/LoadImm.lean ====
section
/-! DEFINITION. Immediate loads and the random byte (43_load_imm.md). -/

namespace Sys2Proof.Machine

/-- `6XKK` LD Vx, kk (R140). -/
def execLdImm (x : VReg) (kk : Byte) (s : State) : Host.Outcome State Fault Refusal :=
  .next (s.setV x kk).advance

/-- `7XKK` ADD Vx, kk (R141): no flag. -/
def execAddImm (x : VReg) (kk : Byte) (s : State) : Host.Outcome State Fault Refusal :=
  .next (s.setV x (add8 (s.V x) kk)).advance

/-- `ANNN` LD I, nnn (R142). -/
def execLdI (nnn : Addr12) (s : State) : Host.Outcome State Fault Refusal :=
  .next (s.setI (addressOperand nnn)).advance

/-- `CXKK` RND Vx, kk (R143): the STEP's random byte AND kk. -/
def execRnd (x : VReg) (kk : Byte) (s : State) : Host.Outcome State Fault Refusal :=
  .next (s.setV x (s.rand8 &&& kk)).advance

end Sys2Proof.Machine
end

