-- ==== Sys2Proof/Machine/Skip.lean ====
section
/-! DEFINITION. Conditional skips (42_skip.md). -/

namespace Sys2Proof.Machine

/-- `3XKK` SE Vx, kk (R130). -/
def execSeImm (x : VReg) (kk : Byte) (s : State) : Host.Outcome State Fault Refusal :=
  .next (s.skipIf (eq8 (s.V x) kk))

/-- `4XKK` SNE Vx, kk (R131). -/
def execSneImm (x : VReg) (kk : Byte) (s : State) : Host.Outcome State Fault Refusal :=
  .next (s.skipIf (!eq8 (s.V x) kk))

/-- `5XY0` SE Vx, Vy (R132). -/
def execSeReg (x y : VReg) (s : State) : Host.Outcome State Fault Refusal :=
  .next (s.skipIf (eq8 (s.V x) (s.V y)))

/-- `9XY0` SNE Vx, Vy (R133). -/
def execSneReg (x y : VReg) (s : State) : Host.Outcome State Fault Refusal :=
  .next (s.skipIf (!eq8 (s.V x) (s.V y)))

end Sys2Proof.Machine
end

