-- ==== Sys2Proof/Machine/Step.lean ====
section
/-! DEFINITION. One STEP transaction (40_cycle.md R100) and how the host places the next instruction. -/

namespace Sys2Proof.Machine

/-- What the STEP adds after an instruction's execution: the tick and the result record (R108, R109). -/
def completeStep (o : Host.Outcome State Fault Refusal) : Host.Outcome State Fault Refusal :=
  match o with
  | .next t => .next (t.finish none)
  | .fault r => .fault r
  | .refused r => .refused r

/-- STEP (R100). A halted block changes no state (R101); the fetch bound is checked first (R102); a word
that is no instruction is reported and skipped (60_exceptions.md R231). -/
def step (s : State) : Host.Outcome State Fault Refusal :=
  match s.status with
  | .halted _ => .next (s.finish none)
  | .running =>
    if s.fetchOutOfBounds then .next ((s.raiseFatal .instructionFetchOutOfBounds).finish none)
    else
      match decode s.params.fullSet s.fetchWord with
      | .ok i => completeStep (exec i s)
      | .error (.unknownOpcode w) => .next (s.skipUnknown.finish (some { opcode := w, pc := s.pc }))

/-- The state with an opcode-table word stored where the next fetch reads it. A word that is an
instruction only with `FULL_SET` also switches that parameter on, since without it the word is UNKNOWN
(log entry 1). A state whose PC cannot be fetched from is left as it is. -/
def State.withFetchWord (s : State) (nbits w : Nat) : State :=
  let word := tableWord nbits w
  if s.fetchOutOfBounds then s
  else
    { s.writeBytes s.pc.toNat [highByte word, lowByte word] with
      params := { s.params with fullSet := s.params.fullSet || needsFullSet word } }

end Sys2Proof.Machine
end

