-- ==== Sys2Proof/Machine/Transactions.lean ====
section
/-! DEFINITION. The block's whole interface: the transactions of 10_state.md R50, each performed whole. -/

namespace Sys2Proof.Machine

/-- A transaction of the host (R50). -/
inductive Transaction where
  | reset
  | load (bytes : List Byte)
  /-- STEP with its random byte. -/
  | step (rand8 : Byte)
  | setKey (index : Nat) (pressed : Bool)
  | clearDraw
  | readFb
  | readDrawPending
  | readStatus
deriving DecidableEq, Repr

/-- What a transaction answers (R50, R51). -/
inductive Response where
  | done
  /-- LOAD accepted. -/
  | loaded
  /-- LOAD refused (60_exceptions.md R237). -/
  | programTooLarge
  | stepped (r : StepResult)
  | framebuffer (fb : Framebuffer)
  | drawPending (b : Bool)
  | status (st : Status)
deriving DecidableEq, Repr

/-- RESET (70_reset_and_hazards.md R271), whatever the state before. The parameters stay. So do the host's
random input and the result of the last STEP, which are no state of the block (10_state.md R35): the outputs
of R54 are those of the last completed STEP (log entry 4). -/
def State.resetBlock (s : State) : State :=
  { State.reset with params := s.params, randIn := s.randIn, randCount := s.randCount, out := s.out }

/-- LOAD would be ProgramTooLarge (R274, R275). -/
def programTooLong (bytes : List Byte) : Bool := decide (bytes.length > Config.maxProgLen)

/-- LOAD (R274, R275). -/
def State.load (s : State) (bytes : List Byte) : State :=
  if programTooLong bytes then s else s.writeBytes Config.progBase bytes

/-- SET_KEY (60_exceptions.md R250): an index outside 0..15 is silently ignored (R238). -/
def State.setKey (s : State) (index : Nat) (pressed : Bool) : State :=
  if h : index < 16 then { s with keys := s.keys.set index pressed } else s

/-- CLEAR_DRAW (60_exceptions.md R249). -/
def State.clearDraw (s : State) : State := { s with drawPending := false }

/-- One transaction: the state after it and its answer (R50). The byte of a STEP comes before any byte
already waiting in the random input and is gone after it. -/
def transact (tr : Transaction) (s : State) : Host.Outcome (State × Response) Fault Refusal :=
  match tr with
  | .reset => .next (s.resetBlock, .done)
  | .load bytes => .next (s.load bytes, if programTooLong bytes then .programTooLarge else .loaded)
  | .step rand8 =>
    match step { s with randIn := rand8 :: s.randIn } with
    | .next t => .next (t, .stepped t.out)
    | .fault r => .fault r
    | .refused r => .refused r
  | .setKey index pressed => .next (s.setKey index pressed, .done)
  | .clearDraw => .next (s.clearDraw, .done)
  | .readFb => .next (s, .framebuffer s.fb)
  | .readDrawPending => .next (s, .drawPending s.drawPending)
  | .readStatus => .next (s, .status s.status)

/-- A run: transactions one after another (R278). -/
def runTransactions : List Transaction → State → Host.Outcome State Fault Refusal
  | [], s => .next s
  | tr :: trs, s =>
    match transact tr s with
    | .next p => runTransactions trs p.1
    | .fault r => .fault r
    | .refused r => .refused r

end Sys2Proof.Machine
end

