-- ==== Sys2Proof/Safety.lean ====
section
/-! DEFINITION. What the statements speak of: the parts of the state, what a frame is, and the properties a
good state has. -/

namespace Sys2Proof.Machine

/-- The parts of State a frame names. -/
inductive Part where
  | v | i | pc | stack | sp | dt | st | fb | drawPending | status | keys | mem | params | randInput | out
deriving DecidableEq, Repr

/-- A part is the same in two states. Memory is compared byte by byte, as it reads. -/
def Part.Same (p : Part) (s t : State) : Prop :=
  match p with
  | .v => t.v = s.v
  | .i => t.i = s.i
  | .pc => t.pc = s.pc
  | .stack => t.stack = s.stack
  | .sp => t.sp = s.sp
  | .dt => t.dt = s.dt
  | .st => t.st = s.st
  | .fb => t.fb = s.fb
  | .drawPending => t.drawPending = s.drawPending
  | .status => t.status = s.status
  | .keys => t.keys = s.keys
  | .mem => ∀ a : Nat, t.readByte a = s.readByte a
  | .params => t.params = s.params
  | .randInput => t.randIn = s.randIn ∧ t.randCount = s.randCount
  | .out => t.out = s.out

/-- The frame: every part but the named ones is the same. -/
def UnchangedBut (changed : List Part) (s t : State) : Prop := ∀ p : Part, p ∉ changed → p.Same s t

/-- Every V register but the named ones is the same. -/
def RegsUnchangedBut (changed : List VReg) (s t : State) : Prop :=
  ∀ j : VReg, j ∉ changed → t.V j = s.V j

/-- The block is halted (10_state.md R32). -/
def State.isHalted (s : State) : Bool := decide (s.status ≠ .running)

/-- Memory is in its canonical form (log entry 5). -/
def State.MemoryCanonical (s : State) : Prop := Memory.wf s.params.font s.mem

/-- Free stack slots hold 0 (10_state.md R27). -/
def State.FreeSlotsZero (s : State) : Prop := ∀ j : Fin 16, s.sp.val ≤ j.val → s.stack[j.val] = 0

/-- PC and the stored return addresses are far below 2^16, so no PC arithmetic wraps (10_state.md R24). -/
def State.PcBounded (s : State) : Prop :=
  s.pc.toNat ≤ 0x10FE ∧ ∀ j : Fin 16, (s.stack[j.val]).toNat ≤ 0x1000

/-- What holds of every state of the base configuration reached from RESET (10_state.md R37); `SP <= 16`
holds by its type. -/
def State.BaseReachable (s : State) : Prop :=
  s.params.fullSet = false ∧ s.i.toNat ≤ 0xFFF ∧ s.dt = 0 ∧ s.st = 0 ∧
    ∀ a : Nat, a < 0x200 → s.readByte a = Memory.unlisted s.params.font a

/-- Pixel (px, py) is hit by a set bit of the sprite of `n` rows at I, drawn at (x0, y0): some row `r` and
bit `b` land on it, wrapped on each axis (45_display.md R182, R183). -/
def State.SpriteHits (s : State) (x0 y0 n px py : Nat) : Prop :=
  ∃ r b : Nat, r < n ∧ b < 8 ∧ (s.readByte (s.i.toNat + r)).getLsbD (7 - b) = true ∧
    (x0 + b) % 64 = px ∧ (y0 + r) % 32 = py

/-- An instruction that writes VF as its flag (10_state.md R21). -/
def Instr.WritesFlag (i : Instr) : Prop :=
  (∃ x y, i = .addReg x y ∨ i = .sub x y ∨ i = .shr x y ∨ i = .subn x y ∨ i = .shl x y) ∨
    ∃ x y n, i = .drw x y n

/-- An instruction whose destination registers include VF (10_state.md R20, R21). -/
def Instr.HasDestVf (i : Instr) : Prop :=
  (∃ kk, i = .ldImm vf kk ∨ i = .addImm vf kk ∨ i = .rnd vf kk) ∨
  (∃ y, i = .ldReg vf y ∨ i = .orReg vf y ∨ i = .andReg vf y ∨ i = .xorReg vf y) ∨
  i = .ldVxDt vf ∨ i = .ldVxK vf ∨ i = .loadRegs vf

end Sys2Proof.Machine
end

