-- ==== Sys2Proof/Certificates/Slice0/Obligations.lean ====
section
/-! DEFINITION. The statements about the model, one for each entry of OBLIGATIONS.json. The docstring of each
names the rules of spec/ it formalises or the sections it rests on, and what in it is the spec's own decision. -/

open Sys2Proof Sys2Proof.Machine

/-- Rule R81. For every word w: class, X, Y, N, KK and NNN are w[15:12], w[11:8], w[7:4], w[3:0], w[7:0]
and w[11:0] as unsigned numbers; KK = (Y << 4) OR N and NNN = (X << 8) OR KK. -/
def Obligations.WordFieldsAreTheirBits : Prop :=
  ∀ w : Word,
    (fieldClass w).toNat = w.toNat / 4096 ∧ (fieldX w).val = w.toNat / 256 % 16 ∧
    (fieldY w).val = w.toNat / 16 % 16 ∧ (fieldN w).val = w.toNat % 16 ∧
    (fieldKK w).toNat = w.toNat % 256 ∧ (fieldNNN w).toNat = w.toNat % 4096 ∧
    (fieldKK w).toNat = (fieldY w).val <<< 4 ||| (fieldN w).val ∧
    (fieldNNN w).toNat = (fieldX w).val <<< 8 ||| (fieldKK w).toNat

/-- From 30_encoding.md section 3; 92_eei_decisions.md D13, D14, D15; notes/assumptions/12.md. The map
has 23 rows in the base configuration and 34 in all. In each configuration: a word that matches an
enabled row decodes to an instruction of that row; a word that decodes to an instruction matches the
enabled row of that instruction; no word matches two enabled rows. So a word that matches no enabled
row is UNKNOWN. The 0xFFFF masks of class 0x0 are the spec's own decision D13, the 0xF000 masks of
classes 0x5 and 0x9 its decision D14 (log entry 12), and the FULL_SET rows are decision D15 and
general knowledge, not in source. -/
def Obligations.DecodeFollowsOpcodeMap : Prop :=
  opcodeMapBase.length = 23 ∧ opcodeMap.length = 34 ∧
  ∀ (fs : Bool) (w : Word),
    (∀ r ∈ opcodeMap, r.enabled fs = true → r.matchesWord w = true →
      ∃ i, decode fs w = .ok i ∧ i.mnemonic = r.mnemonic) ∧
    (∀ i, decode fs w = .ok i →
      ∃ r ∈ opcodeMap, r.enabled fs = true ∧ r.matchesWord w = true ∧ i.mnemonic = r.mnemonic) ∧
    (∀ r ∈ opcodeMap, ∀ r' ∈ opcodeMap, r.enabled fs = true → r'.enabled fs = true →
      r.matchesWord w = true → r'.matchesWord w = true → r = r')

/-- From 30_encoding.md sections 1 to 3; 92_eei_decisions.md D13, D14, D15; notes/assumptions/12.md. For
every configuration and every instruction that is well-formed in it, with every value of every
operand, decode of encode answers that instruction. An instruction that is not well-formed in the
configuration encodes to a word the decoder calls unknown. Which words the two class 0x0
instructions and the FULL_SET ones have is the spec's own decisions D13 and D15; the 0 written in
the ignored nibble of classes 0x5 and 0x9 is the model's choice, log entry 12. -/
def Obligations.DecodeEncodeRoundTrip : Prop :=
  ∀ (fs : Bool) (i : Instr),
    (wellFormed fs i = true → decode fs (encode i) = .ok i) ∧
    (wellFormed fs i = false → decode fs (encode i) = .error (.unknownOpcode (encode i)))

/-- From 30_encoding.md sections 1 to 3; 92_eei_decisions.md D14; notes/assumptions/12.md. If w decodes
to i then i is well-formed in the configuration, and encode i is w, except in classes 0x5 and 0x9,
where encode i is w with its low nibble 0. That the decoder ignores that nibble is the spec's own
decision D14; that the encoder writes it as 0 is the model's choice, log entry 12. -/
def Obligations.EncodeDecodeRoundTrip : Prop :=
  ∀ (fs : Bool) (w : Word) (i : Instr), decode fs w = .ok i →
    wellFormed fs i = true ∧
    encode i = if w &&& 0xF000#16 = 0x5000#16 ∨ w &&& 0xF000#16 = 0x9000#16 then w &&& 0xFFF0#16 else w

/-- From 30_encoding.md section 2; 92_eei_decisions.md D13, D14, D15; notes/assumptions/12.md. A word is
UNKNOWN exactly when it is of class 0x0 and neither 0x00E0 nor 0x00EE; or of class 0x8 with N in 8
to D or F; or of class 0xE, in the base configuration always and with FULL_SET when KK is not 9E or
A1; or of class 0xF, in the base configuration always and with FULL_SET when KK is not one of the
nine. The error names the word. The class 0x0 and FULL_SET parts are the spec's own decisions D13
and D15. That no word of classes 0x5 and 0x9 is UNKNOWN is its decision D14; log entry 12. -/
def Obligations.UnknownWordsAreExactly : Prop :=
  ∀ (fs : Bool) (w : Word),
    decode fs w = .error (.unknownOpcode w) ↔
      (w.toNat / 4096 = 0 ∧ w ≠ 0x00E0#16 ∧ w ≠ 0x00EE#16) ∨
      (w.toNat / 4096 = 8 ∧ w.toNat % 16 ∈ [8, 9, 0xA, 0xB, 0xC, 0xD, 0xF]) ∨
      (w.toNat / 4096 = 0xE ∧ (fs = false ∨ w.toNat % 256 ∉ [0x9E, 0xA1])) ∨
      (w.toNat / 4096 = 0xF ∧
        (fs = false ∨ w.toNat % 256 ∉ [0x07, 0x0A, 0x15, 0x18, 0x1E, 0x29, 0x33, 0x55, 0x65]))

/-- From 30_encoding.md section 3; 92_eei_decisions.md D14, D15; notes/assumptions/12.md. One word of
each family decodes to the instruction it stands for, and 0x8018 and 0xE29E are UNKNOWN in the base
configuration. That 0x9127 decodes although its low nibble is 7 is the spec's own decision D14;
0xF365 and 0xE29E rest on its decision D15 and on general knowledge, not in source; log entry 12. -/
def Obligations.SampleWordsDecode : Prop :=
  decode false 0x00EE#16 = .ok .ret ∧ decode false 0x2ABC#16 = .ok (.call 0xABC#12) ∧
  decode false 0x9127#16 = .ok (.sneReg 1 2) ∧ decode false 0x7F03#16 = .ok (.addImm 15 0x03#8) ∧
  decode false 0x812E#16 = .ok (.shl 1 2) ∧ decode false 0xD125#16 = .ok (.drw 1 2 5) ∧
  decode true 0xF365#16 = .ok (.loadRegs 3) ∧
  decode false 0x8018#16 = .error (.unknownOpcode 0x8018#16) ∧
  decode false 0xE29E#16 = .error (.unknownOpcode 0xE29E#16)

/-- From 20_memory.md section 2; 40_cycle.md section 2. The fetched word is 256 times the byte at PC
plus the byte at PC + 1. -/
def Obligations.FetchIsBigEndian : Prop :=
  ∀ s : State, s.fetchWord.toNat =
    (s.readByte s.pc.toNat).toNat * 256 + (s.readByte (s.pc.toNat + 1)).toNat

/-- From 41_flow.md, 00EE; 30_encoding.md section 2; 92_eei_decisions.md D6, D13;
notes/assumptions/12.md. 00EE is the word 0x00EE alone. With SP > 0: SP falls by 1, PC is the value
of the slot SP - 1, that slot is 0 afterwards, the other slots and every other part are unchanged.
With SP = 0 only STATUS changes, to HALTED(StackUnderflow). The fatal policy is the spec's own
decision D6. That no other word of class 0x0 is RET is the spec's own decision D13, log entry 12. -/
def Obligations.ReturnPopsThePc : Prop :=
  (∀ (fs : Bool) (w : Word), decode fs w = .ok .ret ↔ w = 0x00EE#16) ∧
  (∀ (s : State) (j : Fin 16), j.val + 1 = s.sp.val →
    ∃ t, exec .ret s = .next t ∧ t.sp.val = j.val ∧ t.pc = s.stack[j.val] ∧ t.stack[j.val] = 0 ∧
      (∀ k : Fin 16, k ≠ j → t.stack[k.val] = s.stack[k.val]) ∧ UnchangedBut [.stack, .sp, .pc] s t) ∧
  (∀ s : State, s.sp.val = 0 → exec .ret s = .next { s with status := .halted .stackUnderflow })

/-- Rule R121. Class 0x1 decodes to JP NNN, and JP sets PC to NNN widened with zeros; every other part
of the state is unchanged. No target is refused. -/
def Obligations.JumpSetsThePc : Prop :=
  (∀ (fs : Bool) (w : Word), w &&& 0xF000#16 = 0x1000#16 → decode fs w = .ok (.jp (fieldNNN w))) ∧
  ∀ (nnn : Addr12) (s : State), ∃ t, exec (.jp nnn) s = .next t ∧ t.pc.toNat = nnn.toNat ∧
    UnchangedBut [.pc] s t

/-- From 41_flow.md, 2NNN; 92_eei_decisions.md D5, D6. Class 0x2 decodes to CALL NNN. With SP < 16: slot
SP becomes trunc_16(PC + 2), SP rises by 1, PC is NNN, the other slots and every other part are
unchanged. With SP = 16 only STATUS changes, to HALTED(StackOverflow). The range of SP and the fatal
policy are the spec's own decisions D5 and D6. -/
def Obligations.CallPushesTheReturnAddress : Prop :=
  (∀ (fs : Bool) (w : Word), w &&& 0xF000#16 = 0x2000#16 → decode fs w = .ok (.call (fieldNNN w))) ∧
  (∀ (nnn : Addr12) (s : State) (j : Fin 16), j.val = s.sp.val →
    ∃ t, exec (.call nnn) s = .next t ∧ t.sp.val = s.sp.val + 1 ∧ t.stack[j.val] = s.pc + 2 ∧
      t.pc.toNat = nnn.toNat ∧ (∀ k : Fin 16, k ≠ j → t.stack[k.val] = s.stack[k.val]) ∧
      UnchangedBut [.stack, .sp, .pc] s t) ∧
  (∀ (nnn : Addr12) (s : State), s.sp.val = 16 →
    exec (.call nnn) s = .next { s with status := .halted .stackOverflow })

/-- From 41_flow.md, BNNN; 92_eei_decisions.md D11. Class 0xB decodes to JP V0, NNN, and it sets PC to
NNN + V0 as a natural number, not masked to 12 bits; the flag and every other part are unchanged.
That PC is not masked is the spec's own decision D11. -/
def Obligations.JumpOffsetAddsV0 : Prop :=
  (∀ (fs : Bool) (w : Word), w &&& 0xF000#16 = 0xB000#16 → decode fs w = .ok (.jpV0 (fieldNNN w))) ∧
  ∀ (nnn : Addr12) (s : State), ∃ t, exec (.jpV0 nnn) s = .next t ∧
    t.pc.toNat = nnn.toNat + (s.V 0).toNat ∧ UnchangedBut [.pc] s t

/-- From 41_flow.md, call-return round trip. After CALL at PC with SP < 16, any state that has kept SP
and the pushed slot returns by RET to PC + 2 with SP as before the call and the slot zero. The spec
marks this as derived from its call and return rules. -/
def Obligations.CallThenReturnRestores : Prop :=
  ∀ (nnn : Addr12) (s t t' : State) (j : Fin 16), j.val = s.sp.val → exec (.call nnn) s = .next t →
    t'.sp = t.sp → t'.stack[j.val] = t.stack[j.val] →
    ∃ u, exec .ret t' = .next u ∧ u.pc = s.pc + 2 ∧ u.sp = s.sp ∧ u.stack[j.val] = 0

/-- Rule R130, R131. Classes 0x3 and 0x4 decode to SE Vx, kk and SNE Vx, kk. SE adds 4 to PC when Vx =
kk and 2 otherwise; SNE adds 4 when they differ and 2 otherwise; nothing else changes. -/
def Obligations.SkipOnImmediate : Prop :=
  (∀ (fs : Bool) (w : Word), w &&& 0xF000#16 = 0x3000#16 → decode fs w = .ok (.seImm (fieldX w) (fieldKK w))) ∧
  (∀ (fs : Bool) (w : Word), w &&& 0xF000#16 = 0x4000#16 → decode fs w = .ok (.sneImm (fieldX w) (fieldKK w))) ∧
  ∀ (x : VReg) (kk : Byte) (s : State),
    (∃ t, exec (.seImm x kk) s = .next t ∧ t.pc = s.pc + (if s.V x = kk then 4 else 2) ∧
      UnchangedBut [.pc] s t) ∧
    (∃ t, exec (.sneImm x kk) s = .next t ∧ t.pc = s.pc + (if s.V x ≠ kk then 4 else 2) ∧
      UnchangedBut [.pc] s t)

/-- From 42_skip.md, 5XY0 and 9XY0; 92_eei_decisions.md D14. Classes 0x5 and 0x9, with any low nibble,
decode to SE Vx, Vy and SNE Vx, Vy. SE adds 4 to PC when Vx = Vy and 2 otherwise; SNE the other way
round; nothing else changes. That the low nibble is ignored is the spec's own decision D14. -/
def Obligations.SkipOnRegisters : Prop :=
  (∀ (fs : Bool) (w : Word), w &&& 0xF000#16 = 0x5000#16 → decode fs w = .ok (.seReg (fieldX w) (fieldY w))) ∧
  (∀ (fs : Bool) (w : Word), w &&& 0xF000#16 = 0x9000#16 → decode fs w = .ok (.sneReg (fieldX w) (fieldY w))) ∧
  ∀ (x y : VReg) (s : State),
    (∃ t, exec (.seReg x y) s = .next t ∧ t.pc = s.pc + (if s.V x = s.V y then 4 else 2) ∧
      UnchangedBut [.pc] s t) ∧
    (∃ t, exec (.sneReg x y) s = .next t ∧ t.pc = s.pc + (if s.V x ≠ s.V y then 4 else 2) ∧
      UnchangedBut [.pc] s t)

/-- Rule R140. Class 0x6 decodes to LD Vx, kk; Vx becomes kk (VF when X is F), PC rises by 2, every
other register and part is unchanged. -/
def Obligations.LoadImmediateSetsVx : Prop :=
  (∀ (fs : Bool) (w : Word), w &&& 0xF000#16 = 0x6000#16 → decode fs w = .ok (.ldImm (fieldX w) (fieldKK w))) ∧
  ∀ (x : VReg) (kk : Byte) (s : State), ∃ t, exec (.ldImm x kk) s = .next t ∧ t.V x = kk ∧
    RegsUnchangedBut [x] s t ∧ t.pc = s.pc + 2 ∧ UnchangedBut [.v, .pc] s t

/-- Rule R141. Class 0x7 decodes to ADD Vx, kk; Vx becomes (Vx + kk) mod 256, no other register changes
(VF only when X is F, as the destination), PC rises by 2, every other part is unchanged. -/
def Obligations.AddImmediateWrapsWithoutFlag : Prop :=
  (∀ (fs : Bool) (w : Word), w &&& 0xF000#16 = 0x7000#16 → decode fs w = .ok (.addImm (fieldX w) (fieldKK w))) ∧
  ∀ (x : VReg) (kk : Byte) (s : State), ∃ t, exec (.addImm x kk) s = .next t ∧
    (t.V x).toNat = ((s.V x).toNat + kk.toNat) % 256 ∧
    RegsUnchangedBut [x] s t ∧ t.pc = s.pc + 2 ∧ UnchangedBut [.v, .pc] s t

/-- Rule R142. Class 0xA decodes to LD I, NNN; I becomes NNN, so at most 0xFFF, PC rises by 2, every
other part is unchanged. -/
def Obligations.LoadIndexSetsI : Prop :=
  (∀ (fs : Bool) (w : Word), w &&& 0xF000#16 = 0xA000#16 → decode fs w = .ok (.ldI (fieldNNN w))) ∧
  ∀ (nnn : Addr12) (s : State), ∃ t, exec (.ldI nnn) s = .next t ∧ t.i.toNat = nnn.toNat ∧
    t.i.toNat ≤ 0xFFF ∧ t.pc = s.pc + 2 ∧ UnchangedBut [.i, .pc] s t

/-- From 43_load_imm.md, CXKK; 92_eei_decisions.md D17; notes/assumptions/3.md. Class 0xC decodes to RND
Vx, kk. Vx becomes rand8 AND kk, for whatever byte the state's input gives; PC rises by 2, every
other register and part is unchanged. Every byte is the rand8 of some input, for the same state
otherwise. That rand8 is a free input is the spec's own decision D17; its form in State is the
model's choice, log entry 3. -/
def Obligations.RandomIsAndedWithKk : Prop :=
  (∀ (fs : Bool) (w : Word), w &&& 0xF000#16 = 0xC000#16 → decode fs w = .ok (.rnd (fieldX w) (fieldKK w))) ∧
  (∀ (x : VReg) (kk : Byte) (s : State), ∃ t, exec (.rnd x kk) s = .next t ∧ t.V x = s.rand8 &&& kk ∧
    RegsUnchangedBut [x] s t ∧ t.pc = s.pc + 2 ∧ UnchangedBut [.v, .pc] s t) ∧
  ∀ (s : State) (r : Byte), State.rand8 { s with randIn := r :: s.randIn } = r

/-- Rule R158, R159, R160, R161. Class 0x8 with N = 0 to 3 decodes to LD, OR, AND, XOR Vx, Vy. Vx
becomes Vy, Vx OR Vy, Vx AND Vy, Vx XOR Vy; no other register changes (VF only when X is F); PC
rises by 2; every other part is unchanged. -/
def Obligations.CopyAndBitwiseOperations : Prop :=
  (∀ (fs : Bool) (w : Word), w &&& 0xF00F#16 = 0x8000#16 → decode fs w = .ok (.ldReg (fieldX w) (fieldY w))) ∧
  (∀ (fs : Bool) (w : Word), w &&& 0xF00F#16 = 0x8001#16 → decode fs w = .ok (.orReg (fieldX w) (fieldY w))) ∧
  (∀ (fs : Bool) (w : Word), w &&& 0xF00F#16 = 0x8002#16 → decode fs w = .ok (.andReg (fieldX w) (fieldY w))) ∧
  (∀ (fs : Bool) (w : Word), w &&& 0xF00F#16 = 0x8003#16 → decode fs w = .ok (.xorReg (fieldX w) (fieldY w))) ∧
  ∀ (x y : VReg) (s : State),
    (∃ t, exec (.ldReg x y) s = .next t ∧ t.V x = s.V y ∧
      RegsUnchangedBut [x] s t ∧ t.pc = s.pc + 2 ∧ UnchangedBut [.v, .pc] s t) ∧
    (∃ t, exec (.orReg x y) s = .next t ∧ t.V x = s.V x ||| s.V y ∧
      RegsUnchangedBut [x] s t ∧ t.pc = s.pc + 2 ∧ UnchangedBut [.v, .pc] s t) ∧
    (∃ t, exec (.andReg x y) s = .next t ∧ t.V x = s.V x &&& s.V y ∧
      RegsUnchangedBut [x] s t ∧ t.pc = s.pc + 2 ∧ UnchangedBut [.v, .pc] s t) ∧
    (∃ t, exec (.xorReg x y) s = .next t ∧ t.V x = s.V x ^^^ s.V y ∧
      RegsUnchangedBut [x] s t ∧ t.pc = s.pc + 2 ∧ UnchangedBut [.v, .pc] s t)

/-- From 44_alu.md, 8XY4; 92_eei_decisions.md D16; notes/assumptions/12.md. Class 0x8 with N = 4 decodes
to ADD Vx, Vy. Vx becomes (Vx + Vy) mod 256, operands read before any write, also when X or Y is F;
VF becomes 1 when the sum exceeds 255 and 0 otherwise, unless X is F; no other register changes, PC
rises by 2, every other part is unchanged. The order of the flag and the sum, which decides the form
where X is F, is the spec's own decision D16. -/
def Obligations.AddSetsTheCarry : Prop :=
  (∀ (fs : Bool) (w : Word), w &&& 0xF00F#16 = 0x8004#16 → decode fs w = .ok (.addReg (fieldX w) (fieldY w))) ∧
  ∀ (x y : VReg) (s : State), ∃ t, exec (.addReg x y) s = .next t ∧
    (t.V x).toNat = ((s.V x).toNat + (s.V y).toNat) % 256 ∧
    (x ≠ 15 → t.V 15 = if (s.V x).toNat + (s.V y).toNat > 255 then 1 else 0) ∧
    RegsUnchangedBut [x, 15] s t ∧ t.pc = s.pc + 2 ∧ UnchangedBut [.v, .pc] s t

/-- From 44_alu.md, 8XY5; 92_eei_decisions.md D16. Class 0x8 with N = 5 decodes to SUB Vx, Vy. With f =
1 when Vx > Vy strictly and 0 otherwise: neither X nor Y is F: Vx becomes (Vx - Vy) mod 256 and VF
becomes f; X or Y is F: f is written to VF first and the subtraction then reads VF as f; both F: VF
ends 0. No other register changes, PC rises by 2, every other part is unchanged. The order of the
writes and reads is the spec's own decision D16. -/
def Obligations.SubtractSetsNotBorrow : Prop :=
  (∀ (fs : Bool) (w : Word), w &&& 0xF00F#16 = 0x8005#16 → decode fs w = .ok (.sub (fieldX w) (fieldY w))) ∧
  ∀ (x y : VReg) (s : State), ∃ t, exec (.sub x y) s = .next t ∧
    (x ≠ 15 → y ≠ 15 →
      (t.V x).toNat = ((s.V x).toNat + 256 - (s.V y).toNat) % 256 ∧
      (t.V 15).toNat = (if (s.V x).toNat > (s.V y).toNat then 1 else 0)) ∧
    (x = 15 → y ≠ 15 →
      (t.V 15).toNat = ((if (s.V x).toNat > (s.V y).toNat then 1 else 0) + 256 - (s.V y).toNat) % 256) ∧
    (x ≠ 15 → y = 15 →
      (t.V x).toNat = ((s.V x).toNat + 256 - (if (s.V x).toNat > (s.V y).toNat then 1 else 0)) % 256 ∧
      (t.V 15).toNat = (if (s.V x).toNat > (s.V y).toNat then 1 else 0)) ∧
    (x = 15 → y = 15 → t.V 15 = 0) ∧
    RegsUnchangedBut [x, 15] s t ∧ t.pc = s.pc + 2 ∧ UnchangedBut [.v, .pc] s t

/-- From 44_alu.md, 8XY6; 92_eei_decisions.md D16. Class 0x8 with N = 6 decodes to SHR Vx, Vy. X not F:
Vx becomes Vx div 2 and VF becomes bit 0 of the old Vx; X is F: VF ends 0; Vy is not read, so two
values of Y give the same. No other register changes, PC rises by 2, every other part is unchanged.
The order of the writes is the spec's own decision D16. -/
def Obligations.ShiftRightSetsTheBitOut : Prop :=
  (∀ (fs : Bool) (w : Word), w &&& 0xF00F#16 = 0x8006#16 → decode fs w = .ok (.shr (fieldX w) (fieldY w))) ∧
  (∀ (x y y' : VReg) (s : State), exec (.shr x y) s = exec (.shr x y') s) ∧
  ∀ (x y : VReg) (s : State), ∃ t, exec (.shr x y) s = .next t ∧
    (x ≠ 15 → (t.V x).toNat = (s.V x).toNat / 2 ∧ (t.V 15).toNat = (s.V x).toNat % 2) ∧
    (x = 15 → t.V 15 = 0) ∧
    RegsUnchangedBut [x, 15] s t ∧ t.pc = s.pc + 2 ∧ UnchangedBut [.v, .pc] s t

/-- From 44_alu.md, 8XY7; 92_eei_decisions.md D16. Class 0x8 with N = 7 decodes to SUBN Vx, Vy. With f =
1 when Vy > Vx strictly and 0 otherwise: neither X nor Y is F: Vx becomes (Vy - Vx) mod 256 and VF
becomes f; X or Y is F: f is written to VF first and the subtraction then reads VF as f; both F: VF
ends 0. No other register changes, PC rises by 2, every other part is unchanged. The order of the
writes and reads is the spec's own decision D16. -/
def Obligations.ReverseSubtractSetsNotBorrow : Prop :=
  (∀ (fs : Bool) (w : Word), w &&& 0xF00F#16 = 0x8007#16 → decode fs w = .ok (.subn (fieldX w) (fieldY w))) ∧
  ∀ (x y : VReg) (s : State), ∃ t, exec (.subn x y) s = .next t ∧
    (x ≠ 15 → y ≠ 15 →
      (t.V x).toNat = ((s.V y).toNat + 256 - (s.V x).toNat) % 256 ∧
      (t.V 15).toNat = (if (s.V y).toNat > (s.V x).toNat then 1 else 0)) ∧
    (x = 15 → y ≠ 15 →
      (t.V 15).toNat = ((s.V y).toNat + 256 - (if (s.V y).toNat > (s.V x).toNat then 1 else 0)) % 256) ∧
    (x ≠ 15 → y = 15 →
      (t.V x).toNat = ((if (s.V y).toNat > (s.V x).toNat then 1 else 0) + 256 - (s.V x).toNat) % 256 ∧
      (t.V 15).toNat = (if (s.V y).toNat > (s.V x).toNat then 1 else 0)) ∧
    (x = 15 → y = 15 → t.V 15 = 0) ∧
    RegsUnchangedBut [x, 15] s t ∧ t.pc = s.pc + 2 ∧ UnchangedBut [.v, .pc] s t

/-- From 44_alu.md, 8XYE; 92_eei_decisions.md D16. Class 0x8 with N = E decodes to SHL Vx, Vy. X not F:
Vx becomes 2 Vx mod 256 and VF becomes bit 7 of the old Vx; X is F: VF ends 2 when the old VF had
bit 7 set and 0 otherwise; Vy is not read, so two values of Y give the same. No other register
changes, PC rises by 2, every other part is unchanged. The order of the writes is the spec's own
decision D16. -/
def Obligations.ShiftLeftSetsTheBitOut : Prop :=
  (∀ (fs : Bool) (w : Word), w &&& 0xF00F#16 = 0x800E#16 → decode fs w = .ok (.shl (fieldX w) (fieldY w))) ∧
  (∀ (x y y' : VReg) (s : State), exec (.shl x y) s = exec (.shl x y') s) ∧
  ∀ (x y : VReg) (s : State), ∃ t, exec (.shl x y) s = .next t ∧
    (x ≠ 15 → (t.V x).toNat = (s.V x).toNat * 2 % 256 ∧ (t.V 15).toNat = (s.V x).toNat / 128) ∧
    (x = 15 → t.V 15 = if (s.V 15).toNat ≥ 128 then 2 else 0) ∧
    RegsUnchangedBut [x, 15] s t ∧ t.pc = s.pc + 2 ∧ UnchangedBut [.v, .pc] s t

/-- From 45_display.md, 00E0; 30_encoding.md section 2; 92_eei_decisions.md D13;
notes/assumptions/12.md. The word 0x00E0 alone decodes to CLS. Every pixel (x, y) with x < 64 and y
< 32 becomes 0, DRAW_PENDING becomes 1 whatever the framebuffer held, PC rises by 2, VF and every
other part are unchanged. That no other word of class 0x0 is CLS is the spec's own decision D13. -/
def Obligations.ClearScreenClearsEveryPixel : Prop :=
  (∀ (fs : Bool) (w : Word), decode fs w = .ok .cls ↔ w = 0x00E0#16) ∧
  ∀ s : State, ∃ t, exec .cls s = .next t ∧
    (∀ px py : Nat, px < 64 → py < 32 → t.pixel px py = false) ∧ t.drawPending = true ∧
    t.pc = s.pc + 2 ∧ UnchangedBut [.fb, .drawPending, .pc] s t

/-- From 45_display.md, DXYN, wrap, bit order, draw-pending; 92_eei_decisions.md D8, D18, D24. Class 0xD
decodes to DRW Vx, Vy, n. When n = 0 or I + n - 1 <= 0xFFF: with (x0, y0) = (Vx mod 64, Vy mod 32)
taken before VF is written, every pixel hit by a set bit of the sprite (row r is the byte at I + r,
bit b is bit 7 - b of it, at ((x0 + b) mod 64, (y0 + r) mod 32)) is inverted and every other pixel
is unchanged; VF becomes 1 when a pixel that was 1 is hit and 0 otherwise; DRAW_PENDING becomes 1;
PC rises by 2; no other register or part changes. The bound, the layout and the flag are the spec's
own decisions D8, D18 and D24, and the spec marks the freedom of order as derived. -/
def Obligations.DrawTogglesSpritePixels : Prop :=
  (∀ (fs : Bool) (w : Word), w &&& 0xF000#16 = 0xD000#16 → decode fs w = .ok (.drw (fieldX w) (fieldY w) (fieldN w))) ∧
  ∀ (x y : VReg) (n : Fin 16) (s : State), (n.val = 0 ∨ s.i.toNat + n.val - 1 ≤ 0xFFF) →
    ∃ t, exec (.drw x y n) s = .next t ∧
      (∀ px py : Nat, px < 64 → py < 32 →
        (s.SpriteHits ((s.V x).toNat % 64) ((s.V y).toNat % 32) n.val px py →
          t.pixel px py = !s.pixel px py) ∧
        (¬ s.SpriteHits ((s.V x).toNat % 64) ((s.V y).toNat % 32) n.val px py →
          t.pixel px py = s.pixel px py)) ∧
      ((∃ px py : Nat, px < 64 ∧ py < 32 ∧ s.pixel px py = true ∧
          s.SpriteHits ((s.V x).toNat % 64) ((s.V y).toNat % 32) n.val px py) → t.V 15 = 1) ∧
      ((¬ ∃ px py : Nat, px < 64 ∧ py < 32 ∧ s.pixel px py = true ∧
          s.SpriteHits ((s.V x).toNat % 64) ((s.V y).toNat % 32) n.val px py) → t.V 15 = 0) ∧
      t.drawPending = true ∧ RegsUnchangedBut [15] s t ∧ t.pc = s.pc + 2 ∧
      UnchangedBut [.v, .fb, .drawPending, .pc] s t

/-- Rule R185. With N = 0 DRW answers a next state in which VF is 0, DRAW_PENDING is 1, PC has risen by
2, and no pixel, other register or other part has changed, for every I: no bound is checked. -/
def Obligations.DrawOfNoRowsIsLegal : Prop :=
  ∀ (x y : VReg) (s : State), ∃ t, exec (.drw x y 0) s = .next t ∧ t.V 15 = 0 ∧
    t.drawPending = true ∧ t.fb = s.fb ∧ RegsUnchangedBut [15] s t ∧ t.pc = s.pc + 2 ∧
    UnchangedBut [.v, .drawPending, .pc] s t

/-- From 45_display.md, sprite read bound; 46_ext_full.md, FX33, FX55, FX65; 60_exceptions.md section 1;
92_eei_decisions.md D8, D15. When n > 0 and I + n - 1 > 0xFFF for DRW, I + 2 > 0xFFF for FX33, I + X
> 0xFFF for FX55 and FX65, computed without wrap, the instruction changes only STATUS, to
HALTED(DataAccessOutOfBounds). The condition is the spec's own decision D8. The three FULL_SET
instructions are general knowledge, not in source, decision D15. -/
def Obligations.DataAccessPastMemoryHalts : Prop :=
  (∀ (x y : VReg) (n : Fin 16) (s : State), n.val > 0 → s.i.toNat + n.val - 1 > 0xFFF →
    exec (.drw x y n) s = .next { s with status := .halted .dataAccessOutOfBounds }) ∧
  (∀ (x : VReg) (s : State), s.i.toNat + 2 > 0xFFF →
    exec (.ldBVx x) s = .next { s with status := .halted .dataAccessOutOfBounds }) ∧
  (∀ (x : VReg) (s : State), s.i.toNat + x.val > 0xFFF →
    exec (.storeRegs x) s = .next { s with status := .halted .dataAccessOutOfBounds }) ∧
  (∀ (x : VReg) (s : State), s.i.toNat + x.val > 0xFFF →
    exec (.loadRegs x) s = .next { s with status := .halted .dataAccessOutOfBounds })

/-- From 46_ext_full.md, EX9E and EXA1; 92_eei_decisions.md D15, D31. With FULL_SET, 0xE09E / 0xF0FF and
0xE0A1 / 0xF0FF decode to SKP Vx and SKNP Vx. SKP adds 4 to PC when key (Vx mod 16) is pressed and 2
otherwise; SKNP adds 4 when it is not and 2 otherwise; nothing else changes. The rule is marked
[from general knowledge, not in source] in the spec. -/
def Obligations.SkipOnKey : Prop :=
  (∀ w : Word, w &&& 0xF0FF#16 = 0xE09E#16 → decode true w = .ok (.skp (fieldX w))) ∧
  (∀ w : Word, w &&& 0xF0FF#16 = 0xE0A1#16 → decode true w = .ok (.sknp (fieldX w))) ∧
  ∀ (x : VReg) (s : State) (k : Fin 16), k.val = (s.V x).toNat % 16 →
    (∃ t, exec (.skp x) s = .next t ∧ t.pc = s.pc + (if s.keys[k.val] = true then 4 else 2) ∧
      UnchangedBut [.pc] s t) ∧
    (∃ t, exec (.sknp x) s = .next t ∧ t.pc = s.pc + (if s.keys[k.val] = false then 4 else 2) ∧
      UnchangedBut [.pc] s t)

/-- From 46_ext_full.md, FX0A; 92_eei_decisions.md D15, D31. With FULL_SET, 0xF00A / 0xF0FF decodes to
LD Vx, K. When key k is pressed and no lesser one is: Vx becomes k, PC rises by 2, every other
register and part is unchanged. When no key is pressed the execution changes nothing, PC included,
so the next STEP executes it again. The rule is marked [from general knowledge, not in source] in
the spec. -/
def Obligations.WaitForKeyPolls : Prop :=
  (∀ w : Word, w &&& 0xF0FF#16 = 0xF00A#16 → decode true w = .ok (.ldVxK (fieldX w))) ∧
  (∀ (x : VReg) (s : State) (k : Fin 16), s.keys[k.val] = true →
    (∀ j : Fin 16, j < k → s.keys[j.val] = false) →
    ∃ t, exec (.ldVxK x) s = .next t ∧ (t.V x).toNat = k.val ∧
      RegsUnchangedBut [x] s t ∧ t.pc = s.pc + 2 ∧ UnchangedBut [.v, .pc] s t) ∧
  (∀ (x : VReg) (s : State), (∀ j : Fin 16, s.keys[j.val] = false) → exec (.ldVxK x) s = .next s)

/-- From 46_ext_full.md, FX07, FX15 and FX18; 92_eei_decisions.md D15. With FULL_SET, 0xF007, 0xF015 and
0xF018 / 0xF0FF decode to LD Vx, DT, LD DT, Vx and LD ST, Vx. FX07: Vx becomes DT and no other
register changes. FX15 and FX18: the timer named becomes Vx, and the other timer and every V
register are unchanged. PC rises by 2 and every other part is unchanged (the tick comes after). The
rule is marked [from general knowledge, not in source] in the spec. -/
def Obligations.TimerAccess : Prop :=
  (∀ w : Word, w &&& 0xF0FF#16 = 0xF007#16 → decode true w = .ok (.ldVxDt (fieldX w))) ∧
  (∀ w : Word, w &&& 0xF0FF#16 = 0xF015#16 → decode true w = .ok (.ldDtVx (fieldX w))) ∧
  (∀ w : Word, w &&& 0xF0FF#16 = 0xF018#16 → decode true w = .ok (.ldStVx (fieldX w))) ∧
  ∀ (x : VReg) (s : State),
    (∃ t, exec (.ldVxDt x) s = .next t ∧ t.V x = s.dt ∧
      RegsUnchangedBut [x] s t ∧ t.pc = s.pc + 2 ∧ UnchangedBut [.v, .pc] s t) ∧
    (∃ t, exec (.ldDtVx x) s = .next t ∧ t.dt = s.V x ∧ t.pc = s.pc + 2 ∧
      UnchangedBut [.dt, .pc] s t) ∧
    (∃ t, exec (.ldStVx x) s = .next t ∧ t.st = s.V x ∧ t.pc = s.pc + 2 ∧
      UnchangedBut [.st, .pc] s t)

/-- From 46_ext_full.md, FX1E and FX29; 92_eei_decisions.md D15, D31. With FULL_SET, 0xF01E / 0xF0FF and
0xF029 / 0xF0FF decode to ADD I, Vx and LD F, Vx. I becomes (I + Vx) mod 65536, respectively 0x050 +
5 (Vx mod 16); PC rises by 2; every V register, VF included, and every other part is unchanged. The
rule is marked [from general knowledge, not in source] in the spec. -/
def Obligations.IndexArithmetic : Prop :=
  (∀ w : Word, w &&& 0xF0FF#16 = 0xF01E#16 → decode true w = .ok (.addIVx (fieldX w))) ∧
  (∀ w : Word, w &&& 0xF0FF#16 = 0xF029#16 → decode true w = .ok (.ldFVx (fieldX w))) ∧
  ∀ (x : VReg) (s : State),
    (∃ t, exec (.addIVx x) s = .next t ∧ t.i.toNat = (s.i.toNat + (s.V x).toNat) % 65536 ∧
      t.pc = s.pc + 2 ∧ UnchangedBut [.i, .pc] s t) ∧
    (∃ t, exec (.ldFVx x) s = .next t ∧ t.i.toNat = 0x050 + 5 * ((s.V x).toNat % 16) ∧
      t.pc = s.pc + 2 ∧ UnchangedBut [.i, .pc] s t)

/-- From 46_ext_full.md, FX33; 92_eei_decisions.md D8, D15. With FULL_SET, 0xF033 / 0xF0FF decodes to LD
B, Vx. When I + 2 <= 0xFFF: the bytes at the stored address (I), the next and the one after read as
Vx div 100, (Vx div 10) mod 10 and Vx mod 10; every address outside these three reads as before; PC
rises by 2; I, the V registers and every other part are unchanged. The rule is marked [from general
knowledge, not in source] in the spec. -/
def Obligations.StoreDecimalDigits : Prop :=
  (∀ w : Word, w &&& 0xF0FF#16 = 0xF033#16 → decode true w = .ok (.ldBVx (fieldX w))) ∧
  ∀ (x : VReg) (s : State), s.i.toNat + 2 ≤ 0xFFF → ∃ t, exec (.ldBVx x) s = .next t ∧
    s.dataAddress 0 = s.i.toNat ∧
    (t.readByte (s.dataAddress 0)).toNat = (s.V x).toNat / 100 ∧
    (t.readByte (s.dataAddress 0 + 1)).toNat = (s.V x).toNat / 10 % 10 ∧
    (t.readByte (s.dataAddress 0 + 2)).toNat = (s.V x).toNat % 10 ∧
    (∀ a : Nat, a < s.dataAddress 0 ∨ s.dataAddress 0 + 2 < a → t.readByte a = s.readByte a) ∧
    t.pc = s.pc + 2 ∧ UnchangedBut [.mem, .pc] s t

/-- From 46_ext_full.md, FX55; 92_eei_decisions.md D8, D15, D31. With FULL_SET, 0xF055 / 0xF0FF decodes
to LD [I], Vx. When I + X <= 0xFFF: for every k <= X the byte at the stored address (I) + k reads as
Vk; every address outside these X + 1 reads as before; PC rises by 2; I, the V registers and every
other part are unchanged. The rule is marked [from general knowledge, not in source] in the spec. -/
def Obligations.StoreRegistersAtI : Prop :=
  (∀ w : Word, w &&& 0xF0FF#16 = 0xF055#16 → decode true w = .ok (.storeRegs (fieldX w))) ∧
  ∀ (x : VReg) (s : State), s.i.toNat + x.val ≤ 0xFFF → ∃ t, exec (.storeRegs x) s = .next t ∧
    s.dataAddress 0 = s.i.toNat ∧
    (∀ k : VReg, k ≤ x → t.readByte (s.dataAddress 0 + k.val) = s.V k) ∧
    (∀ a : Nat, a < s.dataAddress 0 ∨ s.dataAddress 0 + x.val < a → t.readByte a = s.readByte a) ∧
    t.pc = s.pc + 2 ∧ UnchangedBut [.mem, .pc] s t

/-- From 46_ext_full.md, FX65; 92_eei_decisions.md D8, D15, D31. With FULL_SET, 0xF065 / 0xF0FF decodes
to LD Vx, [I]. When I + X <= 0xFFF: for every k <= X, Vk becomes the byte at I + k (VF too when X is
F); the registers above X, I, all of memory and every other part are unchanged; PC rises by 2. The
rule is marked [from general knowledge, not in source] in the spec. -/
def Obligations.LoadRegistersFromI : Prop :=
  (∀ w : Word, w &&& 0xF0FF#16 = 0xF065#16 → decode true w = .ok (.loadRegs (fieldX w))) ∧
  ∀ (x : VReg) (s : State), s.i.toNat + x.val ≤ 0xFFF → ∃ t, exec (.loadRegs x) s = .next t ∧
    (∀ k : VReg, k ≤ x → t.V k = s.readByte (s.i.toNat + k.val)) ∧
    (∀ k : VReg, x < k → t.V k = s.V k) ∧ t.pc = s.pc + 2 ∧ UnchangedBut [.v, .pc] s t

/-- From 40_cycle.md sections 1, 3 and 4; notes/assumptions/3.md; notes/assumptions/4.md. On a running
block with PC + 1 < 4096 whose word decodes to i: when exec i answers t and t runs, the step answers
t with both timers counted down once, the result (t.st > 0, none, none), and the STEP's random input
used; when exec i answers a halted t, the step answers t with no tick and the result (0, none,
kind); a fault or a refusal of exec is the step's. The use of the random input and the place of the
result are the model's choice, log entries 3 and 4. -/
def Obligations.StepRunsTheDecodedInstruction : Prop :=
  ∀ (s : State) (i : Instr), s.status = .running → s.pc.toNat + 1 < 4096 →
    decode s.params.fullSet s.fetchWord = .ok i →
    (∀ t, exec i s = .next t → t.status = .running →
      step s = .next { t with
        dt := if t.dt = 0 then 0 else t.dt - 1, st := if t.st = 0 then 0 else t.st - 1,
        out := { tone := decide (t.st ≠ 0), report := none, fatal := none },
        randIn := t.randIn.tail, randCount := t.randCount + 1 }) ∧
    (∀ t k, exec i s = .next t → t.status = .halted k →
      step s = .next { t with
        out := { tone := false, report := none, fatal := some k },
        randIn := t.randIn.tail, randCount := t.randCount + 1 }) ∧
    (∀ r, exec i s = .fault r → step s = .fault r) ∧
    (∀ r, exec i s = .refused r → step s = .refused r)

/-- From 60_exceptions.md, UNKNOWN execution; 92_eei_decisions.md D20. On a running block with PC + 1 <
4096 whose word is UNKNOWN the step answers a next state: PC rises by 2, DT and ST count down once,
the result is (ST > 0, UnknownOpcode(w, PC at the fetch), none), and every other part but the STEP's
random input is unchanged. The tick and the PC of the report are the spec's own decision D20. -/
def Obligations.UnknownWordIsReportedAndSkipped : Prop :=
  ∀ (s : State) (w : Word), s.status = .running → s.pc.toNat + 1 < 4096 →
    decode s.params.fullSet s.fetchWord = .error (.unknownOpcode w) →
    ∃ t, step s = .next t ∧ w = s.fetchWord ∧ t.pc = s.pc + 2 ∧
      t.dt.toNat = s.dt.toNat - 1 ∧ t.st.toNat = s.st.toNat - 1 ∧
      t.out = { tone := decide (s.st.toNat > 0), report := some { opcode := s.fetchWord, pc := s.pc },
                fatal := none } ∧
      UnchangedBut [.pc, .dt, .st, .out, .randInput] s t

/-- From 40_cycle.md section 1; 92_eei_decisions.md D7. With STATUS = HALTED(k) the step answers a next
state in which every part but the result and the random input is unchanged, and the result is (0,
none, k). That a halted block stays halted is the spec's own decision D7. -/
def Obligations.HaltedStepChangesNothing : Prop :=
  ∀ (s : State) (k : FatalKind), s.status = .halted k →
    ∃ t, step s = .next t ∧ t.out = { tone := false, report := none, fatal := some k } ∧
      UnchangedBut [.out, .randInput] s t

/-- From 40_cycle.md section 2; 60_exceptions.md section 1; 92_eei_decisions.md D10. On a running block
with PC + 1 >= 4096, computed without wrap, the step answers a next state with STATUS =
HALTED(InstructionFetchOutOfBounds) and the result (0, none, that kind); PC and every other part but
the random input are unchanged. The surfacing at the fetch is the spec's own decision D10. -/
def Obligations.FetchPastMemoryHalts : Prop :=
  ∀ s : State, s.status = .running → s.pc.toNat + 1 ≥ 4096 →
    ∃ t, step s = .next t ∧ t.status = .halted .instructionFetchOutOfBounds ∧
      t.out = { tone := false, report := none, fatal := some .instructionFetchOutOfBounds } ∧
      UnchangedBut [.status, .out, .randInput] s t

/-- From 40_cycle.md sections 3 and 4; 60_exceptions.md section 1; notes/assumptions/6.md. For every
state, and every value of FULL_SET and FONT in it, the step answers a next state: no word, operand
or state stops the model. That a fatal condition is a next state is the model's choice, log entry 6. -/
def Obligations.EveryStepAnswersANextState : Prop :=
  ∀ s : State, ∃ t, step s = .next t

/-- From 60_exceptions.md sections 1 and 2; 92_eei_decisions.md D9. When a running block's step answers
a halted state, every part but STATUS, the result and the random input is unchanged: no register,
stack, memory, framebuffer or timer write of the failing instruction, PC where it was; the result is
(0, none, kind). Precision is the spec's own decision D9. -/
def Obligations.FatalStepIsPrecise : Prop :=
  ∀ (s t : State) (k : FatalKind), s.status = .running → step s = .next t → t.status = .halted k →
    t.out = { tone := false, report := none, fatal := some k } ∧
    UnchangedBut [.status, .out, .randInput] s t

/-- From 60_exceptions.md sections 1 and 2; 92_eei_decisions.md D5, D6, D8, D10, D15;
notes/assumptions/12.md. A running block's step halts with InstructionFetchOutOfBounds exactly when
PC + 1 >= 4096; otherwise with StackOverflow exactly on CALL with SP = 16, StackUnderflow exactly on
RET with SP = 0, DataAccessOutOfBounds exactly on DRW with n > 0 and I + n - 1 > 0xFFF, FX33 with I
+ 2 > 0xFFF, FX55 or FX65 with I + X > 0xFFF. The spec marks the priority as derived, and D6 and D8
as its own decisions. The range of SP is its decision D5, the surfacing at the fetch D10, and FX33,
FX55 and FX65 are general knowledge, decision D15. -/
def Obligations.FatalConditionsAreExactly : Prop :=
  ∀ s t : State, s.status = .running → step s = .next t →
    (t.status = .halted .instructionFetchOutOfBounds ↔ s.pc.toNat + 1 ≥ 4096) ∧
    (t.status = .halted .stackOverflow ↔ s.pc.toNat + 1 < 4096 ∧ s.sp.val = 16 ∧
      ∃ nnn, decode s.params.fullSet s.fetchWord = .ok (.call nnn)) ∧
    (t.status = .halted .stackUnderflow ↔ s.pc.toNat + 1 < 4096 ∧ s.sp.val = 0 ∧
      decode s.params.fullSet s.fetchWord = .ok .ret) ∧
    (t.status = .halted .dataAccessOutOfBounds ↔ s.pc.toNat + 1 < 4096 ∧
      ((∃ x y n, decode s.params.fullSet s.fetchWord = .ok (.drw x y n) ∧ n.val > 0 ∧
          s.i.toNat + n.val - 1 > 0xFFF) ∨
       (∃ x, decode s.params.fullSet s.fetchWord = .ok (.ldBVx x) ∧ s.i.toNat + 2 > 0xFFF) ∨
       (∃ x, decode s.params.fullSet s.fetchWord = .ok (.storeRegs x) ∧ s.i.toNat + x.val > 0xFFF) ∨
       (∃ x, decode s.params.fullSet s.fetchWord = .ok (.loadRegs x) ∧ s.i.toNat + x.val > 0xFFF)))

/-- From 40_cycle.md section 4; 10_state.md section 9; 92_eei_decisions.md D21; notes/assumptions/4.md.
After any step: fatal is k exactly when the block is then HALTED(k); a report stands exactly when
the block was running with PC + 1 < 4096 and the word was UNKNOWN, and it is the word and the PC of
the fetch; at most one of the two is present; tone is 0 when the block is halted. The record is the
spec's own decision D21; that State holds it is the model's choice, log entry 4. -/
def Obligations.StepResultRecord : Prop :=
  ∀ s t : State, step s = .next t →
    (∀ k, t.out.fatal = some k ↔ t.status = .halted k) ∧
    (∀ r, t.out.report = some r ↔ s.status = .running ∧ s.pc.toNat + 1 < 4096 ∧
      decode s.params.fullSet s.fetchWord = .error (.unknownOpcode s.fetchWord) ∧
      r = { opcode := s.fetchWord, pc := s.pc }) ∧
    (t.out.report = none ∨ t.out.fatal = none) ∧
    (∀ k, t.status = .halted k → t.out.tone = false)

/-- From 60_exceptions.md section 4; 40_cycle.md section 4; 46_ext_full.md, FX15; 92_eei_decisions.md
D15, D20; notes/assumptions/12.md. When a running block's step answers a running state, DT
afterwards is the value the execution left (Vx for FX15, the old DT otherwise, UNKNOWN words
included) less 1, and 0 when it left 0. The FX15 clause is general knowledge, not in source,
decision D15; the tick on UNKNOWN words is the spec's own decision D20. -/
def Obligations.DelayTimerTicks : Prop :=
  ∀ s t : State, s.status = .running → step s = .next t → t.status = .running →
    (∀ x, decode s.params.fullSet s.fetchWord = .ok (.ldDtVx x) → t.dt.toNat = (s.V x).toNat - 1) ∧
    ((∀ x, decode s.params.fullSet s.fetchWord ≠ .ok (.ldDtVx x)) → t.dt.toNat = s.dt.toNat - 1)

/-- From 60_exceptions.md section 4; 40_cycle.md section 4; 46_ext_full.md, FX18; 92_eei_decisions.md
D15, D20, D23; notes/assumptions/12.md. When a running block's step answers a running state, with v
the value of ST that the execution left (Vx for FX18, the old ST otherwise): ST afterwards is v less
1, or 0, and tone is 1 exactly when v > 0. When tone is sampled is the spec's own decision D23. The
FX18 clause is general knowledge, not in source, decision D15; the tick on UNKNOWN words is the
spec's own decision D20, log entry 12. -/
def Obligations.SoundTimerTicksAndSounds : Prop :=
  ∀ s t : State, s.status = .running → step s = .next t → t.status = .running →
    (∀ x, decode s.params.fullSet s.fetchWord = .ok (.ldStVx x) →
      t.st.toNat = (s.V x).toNat - 1 ∧ t.out.tone = decide ((s.V x).toNat > 0)) ∧
    ((∀ x, decode s.params.fullSet s.fetchWord ≠ .ok (.ldStVx x)) →
      t.st.toNat = s.st.toNat - 1 ∧ t.out.tone = decide (s.st.toNat > 0))

/-- From 60_exceptions.md section 4; 92_eei_decisions.md D15, D20, D33; notes/assumptions/7.md;
notes/assumptions/12.md. From every state of the base configuration, if n steps answer a state that
still runs, then DT and ST are the old values less n, and 0 where n is larger: a timer value m > 0
reaches 0 after exactly m completed steps. One tick per step is the spec's own decision D33. The
steps are a run of core alone, with no other transaction between them: the model's choice, log entry
7. The tick on UNKNOWN words is the spec's own decision D20, and that no instruction of the base
configuration writes a timer is its decision D15; log entry 12. -/
def Obligations.TimersReachZeroInThatManySteps : Prop :=
  ∀ (n : Nat) (s t : State), s.params.fullSet = false → Sys2Proof.core.run n s = .next t →
    t.status = .running → t.dt.toNat = s.dt.toNat - n ∧ t.st.toNat = s.st.toNat - n

/-- From 70_reset_and_hazards.md section 1; 92_eei_decisions.md D19, D37; notes/assumptions/2.md;
notes/assumptions/12.md. From every state RESET answers a state with V, I, SP, DT, ST, STACK, KEYS
and every pixel 0, PC = 0x200, DRAW_PENDING 0, STATUS RUNNING, and memory reading as FONT at 0x050
to 0x09F and 0 elsewhere in 0x000 to 0xFFF. The address and contents of FONT are the spec's own
decision D19, and that STATUS becomes RUNNING is D37; FONT is the model's parameter of log entry 2,
and the statement holds for every FONT. -/
def Obligations.ResetSetsEveryField : Prop :=
  ∀ s : State, ∃ t, transact .reset s = .next (t, .done) ∧
    (∀ x : VReg, t.V x = 0) ∧ t.i = 0 ∧ t.pc = 0x200 ∧ t.sp.val = 0 ∧ t.dt = 0 ∧ t.st = 0 ∧
    (∀ j : Fin 16, t.stack[j.val] = 0) ∧ (∀ k : Fin 16, t.keys[k.val] = false) ∧
    (∀ px py : Nat, px < 64 → py < 32 → t.pixel px py = false) ∧
    t.drawPending = false ∧ t.status = .running ∧
    (∀ g : Fin 80, t.readByte (0x050 + g.val) = s.params.font[g.val]) ∧
    (∀ a : Nat, a < 4096 → (a < 0x050 ∨ 0x0A0 ≤ a) → t.readByte a = 0)

/-- From 70_reset_and_hazards.md section 1; 92_eei_decisions.md D35, D38. For at most 3584 bytes LOAD
answers ok: byte j reads at 0x200 + j, every other address reads as before, and every other part, PC
and STATUS included, is unchanged, on a halted block too. That STATUS stays and that length 0 is
legal are the spec's own decisions D35 and D38. -/
def Obligations.LoadCopiesTheProgram : Prop :=
  ∀ (bytes : List Byte) (s : State), bytes.length ≤ 3584 →
    ∃ t, transact (.load bytes) s = .next (t, .loaded) ∧
      (∀ (j : Nat) (b : Byte), bytes[j]? = some b → t.readByte (0x200 + j) = b) ∧
      (∀ a : Nat, a < 0x200 ∨ 0x200 + bytes.length ≤ a → t.readByte a = s.readByte a) ∧
      UnchangedBut [.mem] s t

/-- Rule R275. For more than 3584 bytes LOAD answers ProgramTooLarge and the state as it was, STATUS
included. -/
def Obligations.LoadTooLongChangesNothing : Prop :=
  ∀ (bytes : List Byte) (s : State), bytes.length > 3584 →
    transact (.load bytes) s = .next (s, .programTooLarge)

/-- Rule R250. SET_KEY(index, pressed) with index < 16 sets KEYS[index] to pressed and changes no other
key or part; with index >= 16 the state is as it was and nothing is reported; in every STATUS. -/
def Obligations.SetKeyWritesOneKey : Prop :=
  ∀ (index : Nat) (pressed : Bool) (s : State),
    (∀ k : Fin 16, k.val = index → ∃ t, transact (.setKey index pressed) s = .next (t, .done) ∧
      t.keys[k.val] = pressed ∧ (∀ j : Fin 16, j ≠ k → t.keys[j.val] = s.keys[j.val]) ∧
      UnchangedBut [.keys] s t) ∧
    (16 ≤ index → transact (.setKey index pressed) s = .next (s, .done))

/-- From 60_exceptions.md, presentation interface; 10_state.md, transactions of the block;
92_eei_decisions.md D2. READ_FB answers the framebuffer, READ_DRAW_PENDING the flag and READ_STATUS
the STATUS, RUNNING or HALTED(kind), with no state change; CLEAR_DRAW sets DRAW_PENDING to 0 and
nothing else; a memory write at any address leaves the framebuffer alone, since it is not in the
address space. The transactions as an interface are the spec's own decision D2. -/
def Obligations.HostReadsAndClearDraw : Prop :=
  ∀ s : State,
    transact .readFb s = .next (s, .framebuffer s.fb) ∧
    transact .readDrawPending s = .next (s, .drawPending s.drawPending) ∧
    transact .readStatus s = .next (s, .status s.status) ∧
    (∃ t, transact .clearDraw s = .next (t, .done) ∧ t.drawPending = false ∧
      UnchangedBut [.drawPending] s t) ∧
    ∀ (a : Nat) (b : Byte), (s.writeByte a b).fb = s.fb

/-- From 10_state.md sections 5 and 9; 70_reset_and_hazards.md section 1; 92_eei_decisions.md D7, D25,
D35, D37. A halted block stays HALTED(k) through every transaction but RESET; RESET makes it
RUNNING; LOAD, SET_KEY, CLEAR_DRAW and the reads never change STATUS. These are the spec's own
decisions D7, D25, D35 and D37. -/
def Obligations.OnlyResetLeavesHalted : Prop :=
  (∀ (tr : Transaction) (s t : State) (a : Response) (k : FatalKind), s.status = .halted k →
    tr ≠ .reset → transact tr s = .next (t, a) → t.status = .halted k) ∧
  (∀ (s t : State) (a : Response), transact .reset s = .next (t, a) → t.status = .running) ∧
  (∀ (tr : Transaction) (s t : State) (a : Response), tr ≠ .reset → (∀ r, tr ≠ .step r) →
    transact tr s = .next (t, a) → t.status = s.status)

/-- From 20_memory.md section 1; notes/assumptions/5.md. From every state whose memory is canonical
(addresses strictly rising and below 4096, no entry equal to the reset contents), every step and
every transaction answers a state whose memory is canonical. The form is the model's choice, log
entry 5. -/
def Obligations.StepKeepsMemoryCanonical : Prop :=
  (∀ s t : State, s.MemoryCanonical → step s = .next t → t.MemoryCanonical) ∧
  (∀ (tr : Transaction) (s t : State) (a : Response), s.MemoryCanonical →
    transact tr s = .next (t, a) → t.MemoryCanonical)

/-- From 10_state.md section 2. From every state in which STACK[j] = 0 for every j >= SP, every step and
every transaction answers such a state. The spec marks the invariant as derived. -/
def Obligations.StepKeepsFreeSlotsZero : Prop :=
  (∀ s t : State, s.FreeSlotsZero → step s = .next t → t.FreeSlotsZero) ∧
  (∀ (tr : Transaction) (s t : State) (a : Response), s.FreeSlotsZero →
    transact tr s = .next (t, a) → t.FreeSlotsZero)

/-- From 10_state.md section 1. From every state with PC <= 0x10FE and every stack slot <= 0x1000, every
step and every transaction answers such a state: no 16-bit PC arithmetic wraps. The spec marks the
bound as derived. -/
def Obligations.StepKeepsPcBounded : Prop :=
  (∀ s t : State, s.PcBounded → step s = .next t → t.PcBounded) ∧
  (∀ (tr : Transaction) (s t : State) (a : Response), s.PcBounded →
    transact tr s = .next (t, a) → t.PcBounded)

/-- From 10_state.md section 8; 70_reset_and_hazards.md section 1; 92_eei_decisions.md D15. From every
state of the base configuration with I <= 0xFFF, DT = ST = 0 and 0x000 to 0x1FF holding the reset
contents, every transaction, and so every run of transactions, answers such a state. The spec marks
the invariant as derived. That FULL_SET instructions are no part of this configuration is its
decision D15. -/
def Obligations.BaseConfigurationKeepsItsInvariant : Prop :=
  (∀ (tr : Transaction) (s t : State) (a : Response), s.BaseReachable →
    transact tr s = .next (t, a) → t.BaseReachable) ∧
  (∀ (trs : List Transaction) (s t : State), s.BaseReachable →
    runTransactions trs s = .next t → t.BaseReachable)

/-- From 70_reset_and_hazards.md section 1; 10_state.md section 8; notes/assumptions/4.md. State.reset
has canonical memory, zero free slots, a bounded PC, meets the invariant of the base configuration,
and RESET leaves it as it is. Its parameters and the model's own fields are the model's choice, log
entries 1 to 4. -/
def Obligations.ResetMeetsTheInvariants : Prop :=
  State.reset.MemoryCanonical ∧ State.reset.FreeSlotsZero ∧ State.reset.PcBounded ∧
  State.reset.BaseReachable ∧ transact .reset State.reset = .next (State.reset, .done)

/-- From 10_state.md section 6; 20_memory.md section 2; 00_scope.md section 3; 92_eei_decisions.md D15;
notes/assumptions/1.md; notes/assumptions/2.md. Every step leaves KEYS, FULL_SET and FONT as they
are; in the base configuration it leaves every byte of memory as it is. No transaction changes
FULL_SET or FONT, the model's parameters of log entries 1 and 2. That FULL_SET instructions are no
part of the base configuration is the spec's decision D15. -/
def Obligations.StepKeepsKeysAndParameters : Prop :=
  (∀ s t : State, step s = .next t →
    t.keys = s.keys ∧ t.params = s.params ∧
    (s.params.fullSet = false → ∀ a : Nat, t.readByte a = s.readByte a)) ∧
  (∀ (tr : Transaction) (s t : State) (a : Response), transact tr s = .next (t, a) →
    t.params = s.params)

/-- From 10_state.md sections 1, 2 and 4; 92_eei_decisions.md D15, D24. A step that changes the
framebuffer or DRAW_PENDING executed CLS or DRW, and never clears DRAW_PENDING; one that changes the
stack or SP executed CALL or RET; one that changes I executed ANNN, FX1E or FX29. FX1E and FX29 are
general knowledge, not in source, the spec's decision D15; that every DRW sets the flag is D24. -/
def Obligations.OnlyTheirWritersChangeState : Prop :=
  ∀ s t : State, step s = .next t →
    ((t.fb ≠ s.fb ∨ t.drawPending ≠ s.drawPending) →
      t.drawPending = true ∧ ∃ i, decode s.params.fullSet s.fetchWord = .ok i ∧
        (i = .cls ∨ ∃ x y n, i = .drw x y n)) ∧
    ((t.stack ≠ s.stack ∨ t.sp ≠ s.sp) → ∃ i, decode s.params.fullSet s.fetchWord = .ok i ∧
      (i = .ret ∨ ∃ nnn, i = .call nnn)) ∧
    (t.i ≠ s.i → ∃ i, decode s.params.fullSet s.fetchWord = .ok i ∧
      ((∃ nnn, i = .ldI nnn) ∨ (∃ x, i = .addIVx x) ∨ (∃ x, i = .ldFVx x)))

/-- From 10_state.md section 1; 92_eei_decisions.md D15. A step that changes VF executed 8XY4, 8XY5,
8XY6, 8XY7, 8XYE or DXYN, or an instruction whose destination registers include VF. Of the latter,
FX07, FX0A and FX65 are general knowledge, not in source, the spec's decision D15. -/
def Obligations.VfChangesOnlyByFlagOrDestination : Prop :=
  ∀ s t : State, step s = .next t → t.V 15 ≠ s.V 15 →
    ∃ i, decode s.params.fullSet s.fetchWord = .ok i ∧ (Instr.WritesFlag i ∨ Instr.HasDestVf i)
end

