-- ==== Sys2Proof/Laws/Decode.lean ====
section
/-! SUPPORT. What a mask of a row says of the fields, and the two facts about the decoder that hold of every
word (30_encoding.md R81, R85, R86). -/

namespace Sys2Proof

/-- A row whose mask is 0xF000 fixes the class. -/
theorem fieldClass_of_mask {w c : Word} (h : w &&& 0xF000#16 = c) :
    fieldClass w = c.extractLsb' 12 4 := by
  subst h
  unfold fieldClass
  ext i hi
  have : i < 4 := hi
  interval_cases i <;> simp

/-- A row whose mask is 0xF00F fixes the class and N. -/
theorem fields_of_maskN {w c : Word} (h : w &&& 0xF00F#16 = c) :
    fieldClass w = c.extractLsb' 12 4 ∧ w.extractLsb' 0 4 = c.extractLsb' 0 4 := by
  subst h
  unfold fieldClass
  constructor <;> (ext i hi; have : i < 4 := hi; interval_cases i <;> simp)

/-- A row whose mask is 0xF0FF fixes the class and KK. -/
theorem fields_of_maskKK {w c : Word} (h : w &&& 0xF0FF#16 = c) :
    fieldClass w = c.extractLsb' 12 4 ∧ fieldKK w = c.extractLsb' 0 8 := by
  subst h
  unfold fieldClass fieldKK
  constructor
  · ext i hi; have : i < 4 := hi; interval_cases i <;> simp
  · ext i hi; have : i < 8 := hi; interval_cases i <;> simp

/-- The decoder's error names the word it was given. -/
theorem decode_error_word {fs : Bool} {w w' : Word}
    (h : decode fs w = .error (.unknownOpcode w')) : w' = w := by
  unfold decode at h
  split at h <;> try contradiction
  · unfold decodeClass0 at h; split at h <;> (try split at h) <;> simp_all
  · unfold decodeClass8 at h; dsimp only at h; split at h <;> simp_all
  · unfold decodeClassE at h; dsimp only at h; split at h <;> (try split at h) <;> simp_all
  · unfold decodeClassF at h; dsimp only at h; split at h <;> (try split at h) <;> simp_all

/-- The base configuration decodes no instruction of `FULL_SET` (46_ext_full.md R200). -/
theorem isFullSet_of_decode_base {w : Word} {i : Instr} (h : decode false w = .ok i) :
    i.isFullSet = false := by
  unfold decode at h
  split at h
  case h_1 => unfold decodeClass0 at h; split at h <;> (try split at h) <;> cases h <;> rfl
  case h_9 => unfold decodeClass8 at h; dsimp only at h; split at h <;> cases h <;> rfl
  case h_15 => simp [decodeClassE] at h
  case h_16 => simp [decodeClassF] at h
  all_goals (cases h; rfl)

end Sys2Proof
end

