-- ==== Sys2Proof/Laws/State.lean ====
section
/-! SUPPORT. One lemma for each field and each named update of State: what the update leaves, and what it writes. -/

namespace Sys2Proof.Machine

variable (s : State)

/-! ## setV -/

@[simp] theorem State.setV_v (x : VReg) (b : Byte) : (s.setV x b).v = s.v.set x.val b := rfl
@[simp] theorem State.setV_i (x : VReg) (b : Byte) : (s.setV x b).i = s.i := rfl
@[simp] theorem State.setV_pc (x : VReg) (b : Byte) : (s.setV x b).pc = s.pc := rfl
@[simp] theorem State.setV_stack (x : VReg) (b : Byte) : (s.setV x b).stack = s.stack := rfl
@[simp] theorem State.setV_sp (x : VReg) (b : Byte) : (s.setV x b).sp = s.sp := rfl
@[simp] theorem State.setV_dt (x : VReg) (b : Byte) : (s.setV x b).dt = s.dt := rfl
@[simp] theorem State.setV_st (x : VReg) (b : Byte) : (s.setV x b).st = s.st := rfl
@[simp] theorem State.setV_fb (x : VReg) (b : Byte) : (s.setV x b).fb = s.fb := rfl
@[simp] theorem State.setV_drawPending (x : VReg) (b : Byte) : (s.setV x b).drawPending = s.drawPending := rfl
@[simp] theorem State.setV_status (x : VReg) (b : Byte) : (s.setV x b).status = s.status := rfl
@[simp] theorem State.setV_keys (x : VReg) (b : Byte) : (s.setV x b).keys = s.keys := rfl
@[simp] theorem State.setV_mem (x : VReg) (b : Byte) : (s.setV x b).mem = s.mem := rfl
@[simp] theorem State.setV_params (x : VReg) (b : Byte) : (s.setV x b).params = s.params := rfl
@[simp] theorem State.setV_randIn (x : VReg) (b : Byte) : (s.setV x b).randIn = s.randIn := rfl
@[simp] theorem State.setV_randCount (x : VReg) (b : Byte) : (s.setV x b).randCount = s.randCount := rfl
@[simp] theorem State.setV_out (x : VReg) (b : Byte) : (s.setV x b).out = s.out := rfl
@[simp] theorem State.setV_readByte (x : VReg) (b : Byte) (addr : Nat) : (s.setV x b).readByte addr = s.readByte addr := rfl
@[simp] theorem State.setV_pixel (x : VReg) (b : Byte) (px py : Nat) : (s.setV x b).pixel px py = s.pixel px py := rfl

/-! ## setFlag -/

@[simp] theorem State.setFlag_i (f : Bool) : (s.setFlag f).i = s.i := rfl
@[simp] theorem State.setFlag_pc (f : Bool) : (s.setFlag f).pc = s.pc := rfl
@[simp] theorem State.setFlag_stack (f : Bool) : (s.setFlag f).stack = s.stack := rfl
@[simp] theorem State.setFlag_sp (f : Bool) : (s.setFlag f).sp = s.sp := rfl
@[simp] theorem State.setFlag_dt (f : Bool) : (s.setFlag f).dt = s.dt := rfl
@[simp] theorem State.setFlag_st (f : Bool) : (s.setFlag f).st = s.st := rfl
@[simp] theorem State.setFlag_fb (f : Bool) : (s.setFlag f).fb = s.fb := rfl
@[simp] theorem State.setFlag_drawPending (f : Bool) : (s.setFlag f).drawPending = s.drawPending := rfl
@[simp] theorem State.setFlag_status (f : Bool) : (s.setFlag f).status = s.status := rfl
@[simp] theorem State.setFlag_keys (f : Bool) : (s.setFlag f).keys = s.keys := rfl
@[simp] theorem State.setFlag_mem (f : Bool) : (s.setFlag f).mem = s.mem := rfl
@[simp] theorem State.setFlag_params (f : Bool) : (s.setFlag f).params = s.params := rfl
@[simp] theorem State.setFlag_randIn (f : Bool) : (s.setFlag f).randIn = s.randIn := rfl
@[simp] theorem State.setFlag_randCount (f : Bool) : (s.setFlag f).randCount = s.randCount := rfl
@[simp] theorem State.setFlag_out (f : Bool) : (s.setFlag f).out = s.out := rfl
@[simp] theorem State.setFlag_readByte (f : Bool) (addr : Nat) : (s.setFlag f).readByte addr = s.readByte addr := rfl
@[simp] theorem State.setFlag_pixel (f : Bool) (px py : Nat) : (s.setFlag f).pixel px py = s.pixel px py := rfl

/-! ## setI -/

@[simp] theorem State.setI_v (a : Word) : (s.setI a).v = s.v := rfl
@[simp] theorem State.setI_i (a : Word) : (s.setI a).i = a := rfl
@[simp] theorem State.setI_pc (a : Word) : (s.setI a).pc = s.pc := rfl
@[simp] theorem State.setI_stack (a : Word) : (s.setI a).stack = s.stack := rfl
@[simp] theorem State.setI_sp (a : Word) : (s.setI a).sp = s.sp := rfl
@[simp] theorem State.setI_dt (a : Word) : (s.setI a).dt = s.dt := rfl
@[simp] theorem State.setI_st (a : Word) : (s.setI a).st = s.st := rfl
@[simp] theorem State.setI_fb (a : Word) : (s.setI a).fb = s.fb := rfl
@[simp] theorem State.setI_drawPending (a : Word) : (s.setI a).drawPending = s.drawPending := rfl
@[simp] theorem State.setI_status (a : Word) : (s.setI a).status = s.status := rfl
@[simp] theorem State.setI_keys (a : Word) : (s.setI a).keys = s.keys := rfl
@[simp] theorem State.setI_mem (a : Word) : (s.setI a).mem = s.mem := rfl
@[simp] theorem State.setI_params (a : Word) : (s.setI a).params = s.params := rfl
@[simp] theorem State.setI_randIn (a : Word) : (s.setI a).randIn = s.randIn := rfl
@[simp] theorem State.setI_randCount (a : Word) : (s.setI a).randCount = s.randCount := rfl
@[simp] theorem State.setI_out (a : Word) : (s.setI a).out = s.out := rfl
@[simp] theorem State.setI_V (a : Word) (y : VReg) : (s.setI a).V y = s.V y := rfl
@[simp] theorem State.setI_readByte (a : Word) (addr : Nat) : (s.setI a).readByte addr = s.readByte addr := rfl
@[simp] theorem State.setI_pixel (a : Word) (px py : Nat) : (s.setI a).pixel px py = s.pixel px py := rfl

/-! ## setPc -/

@[simp] theorem State.setPc_v (a : Word) : (s.setPc a).v = s.v := rfl
@[simp] theorem State.setPc_i (a : Word) : (s.setPc a).i = s.i := rfl
@[simp] theorem State.setPc_pc (a : Word) : (s.setPc a).pc = a := rfl
@[simp] theorem State.setPc_stack (a : Word) : (s.setPc a).stack = s.stack := rfl
@[simp] theorem State.setPc_sp (a : Word) : (s.setPc a).sp = s.sp := rfl
@[simp] theorem State.setPc_dt (a : Word) : (s.setPc a).dt = s.dt := rfl
@[simp] theorem State.setPc_st (a : Word) : (s.setPc a).st = s.st := rfl
@[simp] theorem State.setPc_fb (a : Word) : (s.setPc a).fb = s.fb := rfl
@[simp] theorem State.setPc_drawPending (a : Word) : (s.setPc a).drawPending = s.drawPending := rfl
@[simp] theorem State.setPc_status (a : Word) : (s.setPc a).status = s.status := rfl
@[simp] theorem State.setPc_keys (a : Word) : (s.setPc a).keys = s.keys := rfl
@[simp] theorem State.setPc_mem (a : Word) : (s.setPc a).mem = s.mem := rfl
@[simp] theorem State.setPc_params (a : Word) : (s.setPc a).params = s.params := rfl
@[simp] theorem State.setPc_randIn (a : Word) : (s.setPc a).randIn = s.randIn := rfl
@[simp] theorem State.setPc_randCount (a : Word) : (s.setPc a).randCount = s.randCount := rfl
@[simp] theorem State.setPc_out (a : Word) : (s.setPc a).out = s.out := rfl
@[simp] theorem State.setPc_V (a : Word) (y : VReg) : (s.setPc a).V y = s.V y := rfl
@[simp] theorem State.setPc_readByte (a : Word) (addr : Nat) : (s.setPc a).readByte addr = s.readByte addr := rfl
@[simp] theorem State.setPc_pixel (a : Word) (px py : Nat) : (s.setPc a).pixel px py = s.pixel px py := rfl

/-! ## advance -/

@[simp] theorem State.advance_v : (s.advance).v = s.v := rfl
@[simp] theorem State.advance_i : (s.advance).i = s.i := rfl
@[simp] theorem State.advance_stack : (s.advance).stack = s.stack := rfl
@[simp] theorem State.advance_sp : (s.advance).sp = s.sp := rfl
@[simp] theorem State.advance_dt : (s.advance).dt = s.dt := rfl
@[simp] theorem State.advance_st : (s.advance).st = s.st := rfl
@[simp] theorem State.advance_fb : (s.advance).fb = s.fb := rfl
@[simp] theorem State.advance_drawPending : (s.advance).drawPending = s.drawPending := rfl
@[simp] theorem State.advance_status : (s.advance).status = s.status := rfl
@[simp] theorem State.advance_keys : (s.advance).keys = s.keys := rfl
@[simp] theorem State.advance_mem : (s.advance).mem = s.mem := rfl
@[simp] theorem State.advance_params : (s.advance).params = s.params := rfl
@[simp] theorem State.advance_randIn : (s.advance).randIn = s.randIn := rfl
@[simp] theorem State.advance_randCount : (s.advance).randCount = s.randCount := rfl
@[simp] theorem State.advance_out : (s.advance).out = s.out := rfl
@[simp] theorem State.advance_V (y : VReg) : (s.advance).V y = s.V y := rfl
@[simp] theorem State.advance_readByte (addr : Nat) : (s.advance).readByte addr = s.readByte addr := rfl
@[simp] theorem State.advance_pixel (px py : Nat) : (s.advance).pixel px py = s.pixel px py := rfl

/-! ## skipIf -/

@[simp] theorem State.skipIf_v (c : Bool) : (s.skipIf c).v = s.v := rfl
@[simp] theorem State.skipIf_i (c : Bool) : (s.skipIf c).i = s.i := rfl
@[simp] theorem State.skipIf_stack (c : Bool) : (s.skipIf c).stack = s.stack := rfl
@[simp] theorem State.skipIf_sp (c : Bool) : (s.skipIf c).sp = s.sp := rfl
@[simp] theorem State.skipIf_dt (c : Bool) : (s.skipIf c).dt = s.dt := rfl
@[simp] theorem State.skipIf_st (c : Bool) : (s.skipIf c).st = s.st := rfl
@[simp] theorem State.skipIf_fb (c : Bool) : (s.skipIf c).fb = s.fb := rfl
@[simp] theorem State.skipIf_drawPending (c : Bool) : (s.skipIf c).drawPending = s.drawPending := rfl
@[simp] theorem State.skipIf_status (c : Bool) : (s.skipIf c).status = s.status := rfl
@[simp] theorem State.skipIf_keys (c : Bool) : (s.skipIf c).keys = s.keys := rfl
@[simp] theorem State.skipIf_mem (c : Bool) : (s.skipIf c).mem = s.mem := rfl
@[simp] theorem State.skipIf_params (c : Bool) : (s.skipIf c).params = s.params := rfl
@[simp] theorem State.skipIf_randIn (c : Bool) : (s.skipIf c).randIn = s.randIn := rfl
@[simp] theorem State.skipIf_randCount (c : Bool) : (s.skipIf c).randCount = s.randCount := rfl
@[simp] theorem State.skipIf_out (c : Bool) : (s.skipIf c).out = s.out := rfl
@[simp] theorem State.skipIf_V (c : Bool) (y : VReg) : (s.skipIf c).V y = s.V y := rfl
@[simp] theorem State.skipIf_readByte (c : Bool) (addr : Nat) : (s.skipIf c).readByte addr = s.readByte addr := rfl
@[simp] theorem State.skipIf_pixel (c : Bool) (px py : Nat) : (s.skipIf c).pixel px py = s.pixel px py := rfl

/-! ## skipUnknown -/

@[simp] theorem State.skipUnknown_v : (s.skipUnknown).v = s.v := rfl
@[simp] theorem State.skipUnknown_i : (s.skipUnknown).i = s.i := rfl
@[simp] theorem State.skipUnknown_stack : (s.skipUnknown).stack = s.stack := rfl
@[simp] theorem State.skipUnknown_sp : (s.skipUnknown).sp = s.sp := rfl
@[simp] theorem State.skipUnknown_dt : (s.skipUnknown).dt = s.dt := rfl
@[simp] theorem State.skipUnknown_st : (s.skipUnknown).st = s.st := rfl
@[simp] theorem State.skipUnknown_fb : (s.skipUnknown).fb = s.fb := rfl
@[simp] theorem State.skipUnknown_drawPending : (s.skipUnknown).drawPending = s.drawPending := rfl
@[simp] theorem State.skipUnknown_status : (s.skipUnknown).status = s.status := rfl
@[simp] theorem State.skipUnknown_keys : (s.skipUnknown).keys = s.keys := rfl
@[simp] theorem State.skipUnknown_mem : (s.skipUnknown).mem = s.mem := rfl
@[simp] theorem State.skipUnknown_params : (s.skipUnknown).params = s.params := rfl
@[simp] theorem State.skipUnknown_randIn : (s.skipUnknown).randIn = s.randIn := rfl
@[simp] theorem State.skipUnknown_randCount : (s.skipUnknown).randCount = s.randCount := rfl
@[simp] theorem State.skipUnknown_out : (s.skipUnknown).out = s.out := rfl
@[simp] theorem State.skipUnknown_V (y : VReg) : (s.skipUnknown).V y = s.V y := rfl
@[simp] theorem State.skipUnknown_readByte (addr : Nat) : (s.skipUnknown).readByte addr = s.readByte addr := rfl
@[simp] theorem State.skipUnknown_pixel (px py : Nat) : (s.skipUnknown).pixel px py = s.pixel px py := rfl

/-! ## raiseFatal -/

@[simp] theorem State.raiseFatal_v (k : FatalKind) : (s.raiseFatal k).v = s.v := rfl
@[simp] theorem State.raiseFatal_i (k : FatalKind) : (s.raiseFatal k).i = s.i := rfl
@[simp] theorem State.raiseFatal_pc (k : FatalKind) : (s.raiseFatal k).pc = s.pc := rfl
@[simp] theorem State.raiseFatal_stack (k : FatalKind) : (s.raiseFatal k).stack = s.stack := rfl
@[simp] theorem State.raiseFatal_sp (k : FatalKind) : (s.raiseFatal k).sp = s.sp := rfl
@[simp] theorem State.raiseFatal_dt (k : FatalKind) : (s.raiseFatal k).dt = s.dt := rfl
@[simp] theorem State.raiseFatal_st (k : FatalKind) : (s.raiseFatal k).st = s.st := rfl
@[simp] theorem State.raiseFatal_fb (k : FatalKind) : (s.raiseFatal k).fb = s.fb := rfl
@[simp] theorem State.raiseFatal_drawPending (k : FatalKind) : (s.raiseFatal k).drawPending = s.drawPending := rfl
@[simp] theorem State.raiseFatal_status (k : FatalKind) : (s.raiseFatal k).status = .halted k := rfl
@[simp] theorem State.raiseFatal_keys (k : FatalKind) : (s.raiseFatal k).keys = s.keys := rfl
@[simp] theorem State.raiseFatal_mem (k : FatalKind) : (s.raiseFatal k).mem = s.mem := rfl
@[simp] theorem State.raiseFatal_params (k : FatalKind) : (s.raiseFatal k).params = s.params := rfl
@[simp] theorem State.raiseFatal_randIn (k : FatalKind) : (s.raiseFatal k).randIn = s.randIn := rfl
@[simp] theorem State.raiseFatal_randCount (k : FatalKind) : (s.raiseFatal k).randCount = s.randCount := rfl
@[simp] theorem State.raiseFatal_out (k : FatalKind) : (s.raiseFatal k).out = s.out := rfl
@[simp] theorem State.raiseFatal_V (k : FatalKind) (y : VReg) : (s.raiseFatal k).V y = s.V y := rfl
@[simp] theorem State.raiseFatal_readByte (k : FatalKind) (addr : Nat) : (s.raiseFatal k).readByte addr = s.readByte addr := rfl
@[simp] theorem State.raiseFatal_pixel (k : FatalKind) (px py : Nat) : (s.raiseFatal k).pixel px py = s.pixel px py := rfl

/-! ## push -/

@[simp] theorem State.push_v (a : Word) : (s.push a).v = s.v := by unfold State.push; split <;> rfl
@[simp] theorem State.push_i (a : Word) : (s.push a).i = s.i := by unfold State.push; split <;> rfl
@[simp] theorem State.push_pc (a : Word) : (s.push a).pc = s.pc := by unfold State.push; split <;> rfl
@[simp] theorem State.push_dt (a : Word) : (s.push a).dt = s.dt := by unfold State.push; split <;> rfl
@[simp] theorem State.push_st (a : Word) : (s.push a).st = s.st := by unfold State.push; split <;> rfl
@[simp] theorem State.push_fb (a : Word) : (s.push a).fb = s.fb := by unfold State.push; split <;> rfl
@[simp] theorem State.push_drawPending (a : Word) : (s.push a).drawPending = s.drawPending := by unfold State.push; split <;> rfl
@[simp] theorem State.push_status (a : Word) : (s.push a).status = s.status := by unfold State.push; split <;> rfl
@[simp] theorem State.push_keys (a : Word) : (s.push a).keys = s.keys := by unfold State.push; split <;> rfl
@[simp] theorem State.push_mem (a : Word) : (s.push a).mem = s.mem := by unfold State.push; split <;> rfl
@[simp] theorem State.push_params (a : Word) : (s.push a).params = s.params := by unfold State.push; split <;> rfl
@[simp] theorem State.push_randIn (a : Word) : (s.push a).randIn = s.randIn := by unfold State.push; split <;> rfl
@[simp] theorem State.push_randCount (a : Word) : (s.push a).randCount = s.randCount := by unfold State.push; split <;> rfl
@[simp] theorem State.push_out (a : Word) : (s.push a).out = s.out := by unfold State.push; split <;> rfl
@[simp] theorem State.push_V (a : Word) (y : VReg) : (s.push a).V y = s.V y := by simp [State.V]
@[simp] theorem State.push_readByte (a : Word) (addr : Nat) : (s.push a).readByte addr = s.readByte addr := by simp [State.readByte]
@[simp] theorem State.push_pixel (a : Word) (px py : Nat) : (s.push a).pixel px py = s.pixel px py := by simp [State.pixel]

/-! ## pop -/

@[simp] theorem State.pop_v : (s.pop).v = s.v := by unfold State.pop; split <;> rfl
@[simp] theorem State.pop_i : (s.pop).i = s.i := by unfold State.pop; split <;> rfl
@[simp] theorem State.pop_pc : (s.pop).pc = s.pc := by unfold State.pop; split <;> rfl
@[simp] theorem State.pop_dt : (s.pop).dt = s.dt := by unfold State.pop; split <;> rfl
@[simp] theorem State.pop_st : (s.pop).st = s.st := by unfold State.pop; split <;> rfl
@[simp] theorem State.pop_fb : (s.pop).fb = s.fb := by unfold State.pop; split <;> rfl
@[simp] theorem State.pop_drawPending : (s.pop).drawPending = s.drawPending := by unfold State.pop; split <;> rfl
@[simp] theorem State.pop_status : (s.pop).status = s.status := by unfold State.pop; split <;> rfl
@[simp] theorem State.pop_keys : (s.pop).keys = s.keys := by unfold State.pop; split <;> rfl
@[simp] theorem State.pop_mem : (s.pop).mem = s.mem := by unfold State.pop; split <;> rfl
@[simp] theorem State.pop_params : (s.pop).params = s.params := by unfold State.pop; split <;> rfl
@[simp] theorem State.pop_randIn : (s.pop).randIn = s.randIn := by unfold State.pop; split <;> rfl
@[simp] theorem State.pop_randCount : (s.pop).randCount = s.randCount := by unfold State.pop; split <;> rfl
@[simp] theorem State.pop_out : (s.pop).out = s.out := by unfold State.pop; split <;> rfl
@[simp] theorem State.pop_V (y : VReg) : (s.pop).V y = s.V y := by simp [State.V]
@[simp] theorem State.pop_readByte (addr : Nat) : (s.pop).readByte addr = s.readByte addr := by simp [State.readByte]
@[simp] theorem State.pop_pixel (px py : Nat) : (s.pop).pixel px py = s.pixel px py := by simp [State.pixel]

/-! ## writeByte -/

@[simp] theorem State.writeByte_v (a : Nat) (b : Byte) : (s.writeByte a b).v = s.v := rfl
@[simp] theorem State.writeByte_i (a : Nat) (b : Byte) : (s.writeByte a b).i = s.i := rfl
@[simp] theorem State.writeByte_pc (a : Nat) (b : Byte) : (s.writeByte a b).pc = s.pc := rfl
@[simp] theorem State.writeByte_stack (a : Nat) (b : Byte) : (s.writeByte a b).stack = s.stack := rfl
@[simp] theorem State.writeByte_sp (a : Nat) (b : Byte) : (s.writeByte a b).sp = s.sp := rfl
@[simp] theorem State.writeByte_dt (a : Nat) (b : Byte) : (s.writeByte a b).dt = s.dt := rfl
@[simp] theorem State.writeByte_st (a : Nat) (b : Byte) : (s.writeByte a b).st = s.st := rfl
@[simp] theorem State.writeByte_fb (a : Nat) (b : Byte) : (s.writeByte a b).fb = s.fb := rfl
@[simp] theorem State.writeByte_drawPending (a : Nat) (b : Byte) : (s.writeByte a b).drawPending = s.drawPending := rfl
@[simp] theorem State.writeByte_status (a : Nat) (b : Byte) : (s.writeByte a b).status = s.status := rfl
@[simp] theorem State.writeByte_keys (a : Nat) (b : Byte) : (s.writeByte a b).keys = s.keys := rfl
@[simp] theorem State.writeByte_mem (a : Nat) (b : Byte) : (s.writeByte a b).mem = Memory.write s.params.font s.mem a b := rfl
@[simp] theorem State.writeByte_params (a : Nat) (b : Byte) : (s.writeByte a b).params = s.params := rfl
@[simp] theorem State.writeByte_randIn (a : Nat) (b : Byte) : (s.writeByte a b).randIn = s.randIn := rfl
@[simp] theorem State.writeByte_randCount (a : Nat) (b : Byte) : (s.writeByte a b).randCount = s.randCount := rfl
@[simp] theorem State.writeByte_out (a : Nat) (b : Byte) : (s.writeByte a b).out = s.out := rfl
@[simp] theorem State.writeByte_V (a : Nat) (b : Byte) (y : VReg) : (s.writeByte a b).V y = s.V y := rfl
@[simp] theorem State.writeByte_pixel (a : Nat) (b : Byte) (px py : Nat) : (s.writeByte a b).pixel px py = s.pixel px py := rfl

/-! ## writeBytes -/

@[simp] theorem State.writeBytes_v (a : Nat) (bs : List Byte) : (s.writeBytes a bs).v = s.v := rfl
@[simp] theorem State.writeBytes_i (a : Nat) (bs : List Byte) : (s.writeBytes a bs).i = s.i := rfl
@[simp] theorem State.writeBytes_pc (a : Nat) (bs : List Byte) : (s.writeBytes a bs).pc = s.pc := rfl
@[simp] theorem State.writeBytes_stack (a : Nat) (bs : List Byte) : (s.writeBytes a bs).stack = s.stack := rfl
@[simp] theorem State.writeBytes_sp (a : Nat) (bs : List Byte) : (s.writeBytes a bs).sp = s.sp := rfl
@[simp] theorem State.writeBytes_dt (a : Nat) (bs : List Byte) : (s.writeBytes a bs).dt = s.dt := rfl
@[simp] theorem State.writeBytes_st (a : Nat) (bs : List Byte) : (s.writeBytes a bs).st = s.st := rfl
@[simp] theorem State.writeBytes_fb (a : Nat) (bs : List Byte) : (s.writeBytes a bs).fb = s.fb := rfl
@[simp] theorem State.writeBytes_drawPending (a : Nat) (bs : List Byte) : (s.writeBytes a bs).drawPending = s.drawPending := rfl
@[simp] theorem State.writeBytes_status (a : Nat) (bs : List Byte) : (s.writeBytes a bs).status = s.status := rfl
@[simp] theorem State.writeBytes_keys (a : Nat) (bs : List Byte) : (s.writeBytes a bs).keys = s.keys := rfl
@[simp] theorem State.writeBytes_mem (a : Nat) (bs : List Byte) : (s.writeBytes a bs).mem = Memory.writeList s.params.font s.mem a bs := rfl
@[simp] theorem State.writeBytes_params (a : Nat) (bs : List Byte) : (s.writeBytes a bs).params = s.params := rfl
@[simp] theorem State.writeBytes_randIn (a : Nat) (bs : List Byte) : (s.writeBytes a bs).randIn = s.randIn := rfl
@[simp] theorem State.writeBytes_randCount (a : Nat) (bs : List Byte) : (s.writeBytes a bs).randCount = s.randCount := rfl
@[simp] theorem State.writeBytes_out (a : Nat) (bs : List Byte) : (s.writeBytes a bs).out = s.out := rfl
@[simp] theorem State.writeBytes_V (a : Nat) (bs : List Byte) (y : VReg) : (s.writeBytes a bs).V y = s.V y := rfl
@[simp] theorem State.writeBytes_pixel (a : Nat) (bs : List Byte) (px py : Nat) : (s.writeBytes a bs).pixel px py = s.pixel px py := rfl

/-! ## present -/

@[simp] theorem State.present_v (fb : Framebuffer) : (s.present fb).v = s.v := rfl
@[simp] theorem State.present_i (fb : Framebuffer) : (s.present fb).i = s.i := rfl
@[simp] theorem State.present_pc (fb : Framebuffer) : (s.present fb).pc = s.pc := rfl
@[simp] theorem State.present_stack (fb : Framebuffer) : (s.present fb).stack = s.stack := rfl
@[simp] theorem State.present_sp (fb : Framebuffer) : (s.present fb).sp = s.sp := rfl
@[simp] theorem State.present_dt (fb : Framebuffer) : (s.present fb).dt = s.dt := rfl
@[simp] theorem State.present_st (fb : Framebuffer) : (s.present fb).st = s.st := rfl
@[simp] theorem State.present_fb (fb : Framebuffer) : (s.present fb).fb = fb := rfl
@[simp] theorem State.present_drawPending (fb : Framebuffer) : (s.present fb).drawPending = true := rfl
@[simp] theorem State.present_status (fb : Framebuffer) : (s.present fb).status = s.status := rfl
@[simp] theorem State.present_keys (fb : Framebuffer) : (s.present fb).keys = s.keys := rfl
@[simp] theorem State.present_mem (fb : Framebuffer) : (s.present fb).mem = s.mem := rfl
@[simp] theorem State.present_params (fb : Framebuffer) : (s.present fb).params = s.params := rfl
@[simp] theorem State.present_randIn (fb : Framebuffer) : (s.present fb).randIn = s.randIn := rfl
@[simp] theorem State.present_randCount (fb : Framebuffer) : (s.present fb).randCount = s.randCount := rfl
@[simp] theorem State.present_out (fb : Framebuffer) : (s.present fb).out = s.out := rfl
@[simp] theorem State.present_V (fb : Framebuffer) (y : VReg) : (s.present fb).V y = s.V y := rfl
@[simp] theorem State.present_readByte (fb : Framebuffer) (addr : Nat) : (s.present fb).readByte addr = s.readByte addr := rfl

/-! ## loadRegsUpTo -/

@[simp] theorem State.loadRegsUpTo_i (x : VReg) : (s.loadRegsUpTo x).i = s.i := rfl
@[simp] theorem State.loadRegsUpTo_pc (x : VReg) : (s.loadRegsUpTo x).pc = s.pc := rfl
@[simp] theorem State.loadRegsUpTo_stack (x : VReg) : (s.loadRegsUpTo x).stack = s.stack := rfl
@[simp] theorem State.loadRegsUpTo_sp (x : VReg) : (s.loadRegsUpTo x).sp = s.sp := rfl
@[simp] theorem State.loadRegsUpTo_dt (x : VReg) : (s.loadRegsUpTo x).dt = s.dt := rfl
@[simp] theorem State.loadRegsUpTo_st (x : VReg) : (s.loadRegsUpTo x).st = s.st := rfl
@[simp] theorem State.loadRegsUpTo_fb (x : VReg) : (s.loadRegsUpTo x).fb = s.fb := rfl
@[simp] theorem State.loadRegsUpTo_drawPending (x : VReg) : (s.loadRegsUpTo x).drawPending = s.drawPending := rfl
@[simp] theorem State.loadRegsUpTo_status (x : VReg) : (s.loadRegsUpTo x).status = s.status := rfl
@[simp] theorem State.loadRegsUpTo_keys (x : VReg) : (s.loadRegsUpTo x).keys = s.keys := rfl
@[simp] theorem State.loadRegsUpTo_mem (x : VReg) : (s.loadRegsUpTo x).mem = s.mem := rfl
@[simp] theorem State.loadRegsUpTo_params (x : VReg) : (s.loadRegsUpTo x).params = s.params := rfl
@[simp] theorem State.loadRegsUpTo_randIn (x : VReg) : (s.loadRegsUpTo x).randIn = s.randIn := rfl
@[simp] theorem State.loadRegsUpTo_randCount (x : VReg) : (s.loadRegsUpTo x).randCount = s.randCount := rfl
@[simp] theorem State.loadRegsUpTo_out (x : VReg) : (s.loadRegsUpTo x).out = s.out := rfl
@[simp] theorem State.loadRegsUpTo_readByte (x : VReg) (addr : Nat) : (s.loadRegsUpTo x).readByte addr = s.readByte addr := rfl
@[simp] theorem State.loadRegsUpTo_pixel (x : VReg) (px py : Nat) : (s.loadRegsUpTo x).pixel px py = s.pixel px py := rfl

/-! ## tick -/

@[simp] theorem State.tick_v : (s.tick).v = s.v := rfl
@[simp] theorem State.tick_i : (s.tick).i = s.i := rfl
@[simp] theorem State.tick_pc : (s.tick).pc = s.pc := rfl
@[simp] theorem State.tick_stack : (s.tick).stack = s.stack := rfl
@[simp] theorem State.tick_sp : (s.tick).sp = s.sp := rfl
@[simp] theorem State.tick_dt : (s.tick).dt = countdown s.dt := rfl
@[simp] theorem State.tick_st : (s.tick).st = countdown s.st := rfl
@[simp] theorem State.tick_fb : (s.tick).fb = s.fb := rfl
@[simp] theorem State.tick_drawPending : (s.tick).drawPending = s.drawPending := rfl
@[simp] theorem State.tick_status : (s.tick).status = s.status := rfl
@[simp] theorem State.tick_keys : (s.tick).keys = s.keys := rfl
@[simp] theorem State.tick_mem : (s.tick).mem = s.mem := rfl
@[simp] theorem State.tick_params : (s.tick).params = s.params := rfl
@[simp] theorem State.tick_randIn : (s.tick).randIn = s.randIn := rfl
@[simp] theorem State.tick_randCount : (s.tick).randCount = s.randCount := rfl
@[simp] theorem State.tick_out : (s.tick).out = s.out := rfl
@[simp] theorem State.tick_V (y : VReg) : (s.tick).V y = s.V y := rfl
@[simp] theorem State.tick_readByte (addr : Nat) : (s.tick).readByte addr = s.readByte addr := rfl
@[simp] theorem State.tick_pixel (px py : Nat) : (s.tick).pixel px py = s.pixel px py := rfl

/-! ## consumeRand8 -/

@[simp] theorem State.consumeRand8_v : (s.consumeRand8).v = s.v := rfl
@[simp] theorem State.consumeRand8_i : (s.consumeRand8).i = s.i := rfl
@[simp] theorem State.consumeRand8_pc : (s.consumeRand8).pc = s.pc := rfl
@[simp] theorem State.consumeRand8_stack : (s.consumeRand8).stack = s.stack := rfl
@[simp] theorem State.consumeRand8_sp : (s.consumeRand8).sp = s.sp := rfl
@[simp] theorem State.consumeRand8_dt : (s.consumeRand8).dt = s.dt := rfl
@[simp] theorem State.consumeRand8_st : (s.consumeRand8).st = s.st := rfl
@[simp] theorem State.consumeRand8_fb : (s.consumeRand8).fb = s.fb := rfl
@[simp] theorem State.consumeRand8_drawPending : (s.consumeRand8).drawPending = s.drawPending := rfl
@[simp] theorem State.consumeRand8_status : (s.consumeRand8).status = s.status := rfl
@[simp] theorem State.consumeRand8_keys : (s.consumeRand8).keys = s.keys := rfl
@[simp] theorem State.consumeRand8_mem : (s.consumeRand8).mem = s.mem := rfl
@[simp] theorem State.consumeRand8_params : (s.consumeRand8).params = s.params := rfl
@[simp] theorem State.consumeRand8_randIn : (s.consumeRand8).randIn = s.randIn.tail := rfl
@[simp] theorem State.consumeRand8_randCount : (s.consumeRand8).randCount = s.randCount + 1 := rfl
@[simp] theorem State.consumeRand8_out : (s.consumeRand8).out = s.out := rfl
@[simp] theorem State.consumeRand8_V (y : VReg) : (s.consumeRand8).V y = s.V y := rfl
@[simp] theorem State.consumeRand8_readByte (addr : Nat) : (s.consumeRand8).readByte addr = s.readByte addr := rfl
@[simp] theorem State.consumeRand8_pixel (px py : Nat) : (s.consumeRand8).pixel px py = s.pixel px py := rfl

/-! ## setOut -/

@[simp] theorem State.setOut_v (r : StepResult) : (s.setOut r).v = s.v := rfl
@[simp] theorem State.setOut_i (r : StepResult) : (s.setOut r).i = s.i := rfl
@[simp] theorem State.setOut_pc (r : StepResult) : (s.setOut r).pc = s.pc := rfl
@[simp] theorem State.setOut_stack (r : StepResult) : (s.setOut r).stack = s.stack := rfl
@[simp] theorem State.setOut_sp (r : StepResult) : (s.setOut r).sp = s.sp := rfl
@[simp] theorem State.setOut_dt (r : StepResult) : (s.setOut r).dt = s.dt := rfl
@[simp] theorem State.setOut_st (r : StepResult) : (s.setOut r).st = s.st := rfl
@[simp] theorem State.setOut_fb (r : StepResult) : (s.setOut r).fb = s.fb := rfl
@[simp] theorem State.setOut_drawPending (r : StepResult) : (s.setOut r).drawPending = s.drawPending := rfl
@[simp] theorem State.setOut_status (r : StepResult) : (s.setOut r).status = s.status := rfl
@[simp] theorem State.setOut_keys (r : StepResult) : (s.setOut r).keys = s.keys := rfl
@[simp] theorem State.setOut_mem (r : StepResult) : (s.setOut r).mem = s.mem := rfl
@[simp] theorem State.setOut_params (r : StepResult) : (s.setOut r).params = s.params := rfl
@[simp] theorem State.setOut_randIn (r : StepResult) : (s.setOut r).randIn = s.randIn := rfl
@[simp] theorem State.setOut_randCount (r : StepResult) : (s.setOut r).randCount = s.randCount := rfl
@[simp] theorem State.setOut_out (r : StepResult) : (s.setOut r).out = r := rfl
@[simp] theorem State.setOut_V (r : StepResult) (y : VReg) : (s.setOut r).V y = s.V y := rfl
@[simp] theorem State.setOut_readByte (r : StepResult) (addr : Nat) : (s.setOut r).readByte addr = s.readByte addr := rfl
@[simp] theorem State.setOut_pixel (r : StepResult) (px py : Nat) : (s.setOut r).pixel px py = s.pixel px py := rfl

/-! ## Values written -/

theorem trunc16_add (a : Word) (n : Nat) : trunc16 (a.toNat + n) = a + BitVec.ofNat 16 n := by
  apply BitVec.eq_of_toNat_eq
  simp [trunc16]

@[simp] theorem State.advance_pc : s.advance.pc = s.pc + 2 := trunc16_add s.pc 2

@[simp] theorem State.skipUnknown_pc : s.skipUnknown.pc = s.pc + 2 := trunc16_add s.pc 2

@[simp] theorem State.skipIf_pc (c : Bool) : (s.skipIf c).pc = s.pc + if c then 4 else 2 := by
  cases c
  · exact trunc16_add s.pc 2
  · exact trunc16_add s.pc 4

@[simp] theorem State.setV_V (x y : VReg) (b : Byte) :
    (s.setV x b).V y = if y = x then b else s.V y := by
  unfold State.setV State.V
  by_cases h : y = x
  · simp [h]
  · have : x.val ≠ y.val := fun e => h (Fin.ext e.symm)
    simp [h, this]

@[simp] theorem State.setFlag_V (f : Bool) (y : VReg) :
    (s.setFlag f).V y = if y = 15 then flagByte f else s.V y := State.setV_V s vf y (flagByte f)

@[simp] theorem State.loadRegsUpTo_V (x y : VReg) :
    (s.loadRegsUpTo x).V y = if y ≤ x then s.readByte (s.dataAddress y.val) else s.V y := by
  unfold State.loadRegsUpTo State.V
  rw [Vector.getElem_ofFn]
  rfl

/-- A push that is not an overflow fills slot SP and raises SP. -/
theorem State.push_of_lt (a : Word) (h : s.sp.val < 16) :
    s.push a = { s with stack := s.stack.set s.sp.val a, sp := ⟨s.sp.val + 1, by omega⟩ } := by
  unfold State.push
  simp [h]

/-- A pop that is not an underflow zeroes slot SP - 1 and lowers SP. -/
theorem State.pop_of_pos (h : 0 < s.sp.val) :
    s.pop = { s with stack := s.stack.set (s.sp.val - 1) 0 (by omega), sp := ⟨s.sp.val - 1, by omega⟩ } := by
  unfold State.pop
  simp [h]

/-- The popped value of a stack that is not empty is slot SP - 1. -/
theorem State.top_of_pos (h : 0 < s.sp.val) : s.top = s.stack[s.sp.val - 1]'(by omega) := by
  unfold State.top
  simp [h]

/-- A timer counts down by one and stops at 0. -/
@[simp] theorem countdown_toNat (t : Byte) : (countdown t).toNat = t.toNat - 1 := by
  unfold countdown
  split
  · simp_all
  · simp only [trunc8, BitVec.toNat_ofNat]
    omega

/-- The countdown as a subtraction of bytes. -/
theorem countdown_eq (t : Byte) : countdown t = if t = 0 then 0 else t - 1 := by
  apply BitVec.eq_of_toNat_eq
  by_cases h : t = 0
  · simp [h]
  · have : t.toNat ≠ 0 := fun e => h (BitVec.eq_of_toNat_eq (by simpa using e))
    rw [countdown_toNat, if_neg h, BitVec.toNat_sub]
    simp
    omega

theorem finish_of_running {s : State} (h : s.status = .running) (r : Option Report) :
    s.finish r = (s.tick.consumeRand8).setOut ⟨s.tone, r, none⟩ := by
  unfold State.finish
  simp [h]

theorem finish_of_halted {s : State} {k : FatalKind} (h : s.status = .halted k) (r : Option Report) :
    s.finish r = s.consumeRand8.setOut ⟨false, none, some k⟩ := by
  unfold State.finish
  simp [h]

end Sys2Proof.Machine
end

