-- ==== Sys2Proof/Laws/Display.lean ====
section
/-! SUPPORT. The framebuffer: what one toggle, a clear and one sprite bit do (45_display.md R180-R183). -/

namespace Sys2Proof.Machine

@[simp] theorem Framebuffer.get_clear (k : Nat) : Framebuffer.get Framebuffer.clear k = false := by
  unfold Framebuffer.get Framebuffer.clear
  split <;> simp

/-- A toggle inverts its own cell and no other. -/
theorem Framebuffer.get_toggle (fb : Framebuffer) {k : Nat} (hk : k < 2048) (k' : Nat) :
    Framebuffer.get (Framebuffer.toggle fb k) k' = (Framebuffer.get fb k' ^^ decide (k' = k)) := by
  have h : k / 64 < 32 := by omega
  unfold Framebuffer.toggle Framebuffer.get
  simp only [h, dif_pos]
  by_cases h' : k' / 64 < 32
  · simp only [h', dif_pos, Vector.getElem_set]
    by_cases e : k / 64 = k' / 64
    · have : (k' % 64 = k % 64) ↔ k' = k := by omega
      simp [e, this, Nat.mod_lt]
    · have : k' ≠ k := by rintro rfl; exact e rfl
      simp [e, this]
  · have : k' ≠ k := by rintro rfl; exact h' h
    simp [h', this]

/-- Different pixels of the screen are different cells (10_state.md R30). -/
theorem pixelIndex_inj {x y x' y' : Nat} (hx : x < 64) (hx' : x' < 64) :
    pixelIndex x y = pixelIndex x' y' ↔ x = x' ∧ y = y' := by
  unfold pixelIndex Config.fbWidth
  omega

theorem pixelIndex_lt {x y : Nat} (hx : x < 64) (hy : y < 32) : pixelIndex x y < 2048 := by
  unfold pixelIndex Config.fbWidth
  omega

@[simp] theorem State.present_pixel (s : State) (fb : Framebuffer) (px py : Nat) :
    (s.present fb).pixel px py = Framebuffer.get fb (pixelIndex px py) := rfl

/-- One sprite bit, as the pixels read: its own pixel is inverted when the bit is set, and the collision
flag is raised when that pixel was 1 (R181). -/
theorem plotBit_spec (x0 line : Nat) (byte : Byte) (acc : Framebuffer × Bool) (b : Nat) {px py : Nat}
    (hx : px < 64) :
    Framebuffer.get (plotBit x0 line byte acc b).1 (pixelIndex px py) =
      (Framebuffer.get acc.1 (pixelIndex px py) ^^
        (spriteBit byte b && decide (px = (x0 + b) % 64 ∧ py = line % 32))) ∧
    (plotBit x0 line byte acc b).2 =
      (acc.2 || (spriteBit byte b &&
        Framebuffer.get acc.1 (pixelIndex ((x0 + b) % 64) (line % 32)))) := by
  have h1 : (x0 + b) % 64 < 64 := Nat.mod_lt _ (by decide)
  have h2 : line % 32 < 32 := Nat.mod_lt _ (by decide)
  unfold plotBit
  cases h : spriteBit byte b
  · simp
  · simp only [if_true, Config.fbWidth, Config.fbHeight, Bool.true_and, and_true]
    rw [Framebuffer.get_toggle _ (pixelIndex_lt h1 h2)]
    simp [pixelIndex_inj hx h1]

end Sys2Proof.Machine
end

