-- ==== Sys2Proof/Laws/Exec.lean ====
section
/-! SUPPORT. What an execution can do to one part of the state, said once for all instructions. -/

namespace Sys2Proof.Machine

variable {i : Instr} {s t : State}

/-- The timers: only FX15 writes DT and only FX18 writes ST (10_state.md R28, R29). -/
theorem exec_timers (h : exec i s = .next t) :
    (t.dt = s.dt ∨ ∃ x, i = .ldDtVx x ∧ t.dt = s.V x) ∧
    (t.st = s.st ∨ ∃ x, i = .ldStVx x ∧ t.st = s.V x) := by
  cases i
  case ret => simp only [exec, execRet] at h; split at h <;> cases h <;> simp
  case call nnn => simp only [exec, execCall] at h; split at h <;> cases h <;> simp
  case drw x y n => simp only [exec, execDrw] at h; split at h <;> cases h <;> simp
  case ldVxK x => simp only [exec, execLdVxK] at h; split at h <;> cases h <;> simp
  case ldBVx x => simp only [exec, execLdBVx] at h; split at h <;> cases h <;> simp
  case storeRegs x => simp only [exec, execStoreRegs] at h; split at h <;> cases h <;> simp
  case loadRegs x => simp only [exec, execLoadRegs] at h; split at h <;> cases h <;> simp
  all_goals cases h; simp

/-- STATUS: kept, or the execution raised a fatal condition and did nothing else (60_exceptions.md R232,
R241). -/
theorem exec_status (h : exec i s = .next t) : t.status = s.status ∨ ∃ k, t = s.raiseFatal k := by
  cases i
  case ret => simp only [exec, execRet] at h; split at h <;> cases h <;> simp
  case call nnn => simp only [exec, execCall] at h; split at h <;> cases h <;> simp
  case drw x y n => simp only [exec, execDrw] at h; split at h <;> cases h <;> simp
  case ldVxK x => simp only [exec, execLdVxK] at h; split at h <;> cases h <;> simp
  case ldBVx x => simp only [exec, execLdBVx] at h; split at h <;> cases h <;> simp
  case storeRegs x => simp only [exec, execStoreRegs] at h; split at h <;> cases h <;> simp
  case loadRegs x => simp only [exec, execLoadRegs] at h; split at h <;> cases h <;> simp
  all_goals cases h; simp

/-- The stack: kept, pushed by a call or popped by a return (10_state.md R25, R26). -/
theorem exec_stack (h : exec i s = .next t) :
    (t.stack = s.stack ∧ t.sp = s.sp) ∨
    (∃ nnn, i = .call nnn ∧ s.sp.val < 16 ∧
      t = (s.push (trunc16 (s.pc.toNat + 2))).setPc (addressOperand nnn)) ∨
    (i = .ret ∧ 0 < s.sp.val ∧ t = s.pop.setPc s.top) := by
  cases i
  case ret =>
    simp only [exec, execRet] at h
    split at h <;> cases h
    · simp
    · next hh =>
      exact .inr (.inr ⟨rfl, Nat.pos_of_ne_zero fun e => hh (decide_eq_true e), rfl⟩)
  case call nnn =>
    simp only [exec, execCall] at h
    split at h <;> cases h
    · simp
    · next hh =>
      have : s.sp.val ≠ 16 := fun e => hh (decide_eq_true e)
      exact .inr (.inl ⟨nnn, rfl, by omega, rfl⟩)
  case drw x y n => simp only [exec, execDrw] at h; split at h <;> cases h <;> simp
  case ldVxK x => simp only [exec, execLdVxK] at h; split at h <;> cases h <;> simp
  case ldBVx x => simp only [exec, execLdBVx] at h; split at h <;> cases h <;> simp
  case storeRegs x => simp only [exec, execStoreRegs] at h; split at h <;> cases h <;> simp
  case loadRegs x => simp only [exec, execLoadRegs] at h; split at h <;> cases h <;> simp
  all_goals cases h; simp

/-- The index register: kept, or written by ANNN, FX1E or FX29 (10_state.md R22). -/
theorem exec_i (h : exec i s = .next t) :
    t.i = s.i ∨ (∃ nnn, i = .ldI nnn) ∨ (∃ x, i = .addIVx x) ∨ (∃ x, i = .ldFVx x) := by
  cases i
  case ret => simp only [exec, execRet] at h; split at h <;> cases h <;> simp
  case call nnn => simp only [exec, execCall] at h; split at h <;> cases h <;> simp
  case drw x y n => simp only [exec, execDrw] at h; split at h <;> cases h <;> simp
  case ldVxK x => simp only [exec, execLdVxK] at h; split at h <;> cases h <;> simp
  case ldBVx x => simp only [exec, execLdBVx] at h; split at h <;> cases h <;> simp
  case storeRegs x => simp only [exec, execStoreRegs] at h; split at h <;> cases h <;> simp
  case loadRegs x => simp only [exec, execLoadRegs] at h; split at h <;> cases h <;> simp
  all_goals cases h; simp

/-- The framebuffer: kept with its flag, or written by CLS or DRW with the flag set (10_state.md R30,
R31). -/
theorem exec_framebuffer (h : exec i s = .next t) :
    (t.fb = s.fb ∧ t.drawPending = s.drawPending) ∨
    (t.drawPending = true ∧ (i = .cls ∨ ∃ x y n, i = .drw x y n)) := by
  cases i
  case ret => simp only [exec, execRet] at h; split at h <;> cases h <;> simp
  case call nnn => simp only [exec, execCall] at h; split at h <;> cases h <;> simp
  case drw x y n => simp only [exec, execDrw] at h; split at h <;> cases h <;> simp
  case ldVxK x => simp only [exec, execLdVxK] at h; split at h <;> cases h <;> simp
  case ldBVx x => simp only [exec, execLdBVx] at h; split at h <;> cases h <;> simp
  case storeRegs x => simp only [exec, execStoreRegs] at h; split at h <;> cases h <;> simp
  case loadRegs x => simp only [exec, execLoadRegs] at h; split at h <;> cases h <;> simp
  all_goals cases h; simp

/-- Memory: kept by every instruction of the base set (20_memory.md R62). -/
theorem exec_memory (h : exec i s = .next t) : t.mem = s.mem ∨ i.isFullSet = true := by
  cases i
  case ret => simp only [exec, execRet] at h; split at h <;> cases h <;> simp
  case call nnn => simp only [exec, execCall] at h; split at h <;> cases h <;> simp
  case drw x y n => simp only [exec, execDrw] at h; split at h <;> cases h <;> simp
  all_goals first | exact .inr rfl | (cases h; simp)

end Sys2Proof.Machine
end

