-- ==== Sys2Proof/Laws/Memory.lean ====
section
/-! SUPPORT. Memory: a read after a write, and the canonical form (20_memory.md R66, R69; log entry 5). -/

namespace Sys2Proof.Machine

variable (font : Font)

@[simp] theorem Memory.lookup_put (m : Memory) (a a' : Nat) (b : Byte) :
    Memory.lookup a' (Memory.put a b m) = if a' = a then some b else Memory.lookup a' m := by
  induction m with
  | nil => simp [Memory.put, Memory.lookup, eq_comm]
  | cons c m ih =>
    unfold Memory.put
    split
    · simp [Memory.lookup, eq_comm]
    · split
      · next h =>
        subst h
        by_cases e : c.1 = a'
        · simp [Memory.lookup, e]
        · simp [Memory.lookup, e, Ne.symm e]
      · next h =>
        simp only [Memory.lookup, ih]
        by_cases e : c.1 = a'
        · have : a' ≠ a := fun e' => h (by rw [← e', e])
          simp [e, this]
        · simp [e]

@[simp] theorem Memory.lookup_drop (m : Memory) (a a' : Nat) :
    Memory.lookup a' (Memory.drop a m) = if a' = a then none else Memory.lookup a' m := by
  induction m with
  | nil => simp [Memory.drop, Memory.lookup]
  | cons c m ih =>
    simp only [Memory.drop, List.filter_cons] at ih ⊢
    by_cases h : c.1 = a
    · simp only [h, ne_eq, not_true_eq_false, decide_false, Bool.false_eq_true, if_false, ih,
        Memory.lookup]
      by_cases e : a' = a
      · simp [e]
      · simp [e, Ne.symm e]
    · simp only [ne_eq, h, not_false_eq_true, decide_true, if_true, Memory.lookup, ih]
      by_cases e : c.1 = a'
      · have : a' ≠ a := fun e' => h (e.trans e')
        simp [e, this]
      · simp [e]

/-- A read after a write: the written byte at its address, and the old byte elsewhere. -/
@[simp] theorem Memory.read_write (m : Memory) (a a' : Nat) (b : Byte) :
    Memory.read font (Memory.write font m a b) a' = if a' = a then b else Memory.read font m a' := by
  unfold Memory.write Memory.read
  split
  · next h => by_cases e : a' = a <;> simp [e, h]
  · by_cases e : a' = a <;> simp [e]

/-- A read after writes at rising addresses. -/
theorem Memory.read_writeList (m : Memory) (a a' : Nat) (bs : List Byte) :
    Memory.read font (Memory.writeList font m a bs) a' =
      if a ≤ a' then (bs[a' - a]?).getD (Memory.read font m a') else Memory.read font m a' := by
  induction bs generalizing m a with
  | nil => simp [Memory.writeList]
  | cons b bs ih =>
    rw [Memory.writeList, ih, Memory.read_write]
    by_cases h : a' = a
    · subst h; simp
    · by_cases h2 : a ≤ a'
      · have h3 : a + 1 ≤ a' := by omega
        have h4 : a' - a = (a' - (a + 1)) + 1 := by omega
        simp [h, h2, h3, h4]
      · have h3 : ¬ a + 1 ≤ a' := by omega
        simp [h, h2, h3]

theorem Memory.mem_put {m : Memory} {a : Nat} {b : Byte} {c : Host.Cell}
    (h : c ∈ Memory.put a b m) : c = (a, b) ∨ c ∈ m := by
  induction m with
  | nil => exact Or.inl (by simpa [Memory.put] using h)
  | cons d m ih =>
    unfold Memory.put at h
    split at h
    · simpa using h
    · split at h
      · rcases List.mem_cons.mp h with h | h
        · exact Or.inl h
        · exact Or.inr (List.mem_cons_of_mem _ h)
      · rcases List.mem_cons.mp h with h | h
        · exact Or.inr (h ▸ List.mem_cons_self)
        · exact (ih h).imp id (List.mem_cons_of_mem _)

theorem Memory.put_sorted {m : Memory} (h : m.Pairwise fun c d => c.1 < d.1) (a : Nat) (b : Byte) :
    (Memory.put a b m).Pairwise fun c d => c.1 < d.1 := by
  induction m with
  | nil => simp [Memory.put]
  | cons d m ih =>
    rw [List.pairwise_cons] at h
    unfold Memory.put
    split
    · next hlt =>
      refine List.pairwise_cons.mpr ⟨fun c hc => ?_, List.pairwise_cons.mpr h⟩
      rcases List.mem_cons.mp hc with hc | hc
      · exact hc ▸ hlt
      · exact lt_trans hlt (h.1 c hc)
    · split
      · next heq => exact List.pairwise_cons.mpr ⟨fun c hc => by simpa [heq] using h.1 c hc, h.2⟩
      · refine List.pairwise_cons.mpr ⟨fun c hc => ?_, ih h.2⟩
        rcases Memory.mem_put hc with hc | hc
        · subst hc; simp only; omega
        · exact h.1 c hc

/-- A write inside the address space keeps the canonical form. -/
theorem Memory.wf_write {m : Memory} (h : Memory.wf font m) {a : Nat} (ha : a < Config.memSize)
    (b : Byte) : Memory.wf font (Memory.write font m a b) := by
  unfold Memory.write
  split
  · exact ⟨h.1.filter _, fun c hc => h.2 c (List.mem_of_mem_filter hc)⟩
  · next hb =>
    refine ⟨Memory.put_sorted h.1 a b, fun c hc => ?_⟩
    rcases Memory.mem_put hc with hc | hc
    · subst hc; exact ⟨ha, hb⟩
    · exact h.2 c hc

/-- Writes at rising addresses inside the address space keep the canonical form. -/
theorem Memory.wf_writeList {m : Memory} (h : Memory.wf font m) {a : Nat} {bs : List Byte}
    (ha : a + bs.length ≤ Config.memSize) : Memory.wf font (Memory.writeList font m a bs) := by
  induction bs generalizing m a with
  | nil => exact h
  | cons b bs ih =>
    simp only [List.length_cons] at ha
    exact ih (Memory.wf_write font h (by omega) b) (by omega)

theorem Memory.wf_nil : Memory.wf font [] := by simp [Memory.wf]

/-- The state's one-byte write, as it reads. -/
@[simp] theorem State.writeByte_readByte (s : State) (a a' : Nat) (b : Byte) :
    (s.writeByte a b).readByte a' = if a' = a then b else s.readByte a' :=
  Memory.read_write _ _ _ _ _

/-- The state's write of a list of bytes, as it reads. -/
theorem State.writeBytes_readByte (s : State) (a a' : Nat) (bs : List Byte) :
    (s.writeBytes a bs).readByte a' =
      if a ≤ a' then (bs[a' - a]?).getD (s.readByte a') else s.readByte a' :=
  Memory.read_writeList _ _ _ _ _

end Sys2Proof.Machine
end

