-- ==== Sys2Proof/Laws/PerInstr.lean ====
section
/-! SUPPORT. Facts stated for every instruction, one lemma per constructor. -/

namespace Sys2Proof.Laws

/-- The bits of an encoded word: class, then fields, as one number (30_encoding.md R81, R90). -/
theorem append_toNat {n m : Nat} (a : BitVec n) (b : BitVec m) :
    (a ++ b).toNat = a.toNat * 2 ^ m + b.toNat := by
  rw [BitVec.toNat_append, ← Nat.shiftLeft_add_eq_or_of_lt (by exact BitVec.isLt _), Nat.shiftLeft_eq]

theorem wordXKK_toNat (c : BitVec 4) (x : VReg) (kk : Byte) :
    (wordXKK c x kk).toNat = c.toNat * 4096 + x.val * 256 + kk.toNat := by
  have h1 := append_toNat c (BitVec.ofFin (w := 4) x)
  have h2 := append_toNat (c ++ BitVec.ofFin (w := 4) x) kk
  rw [h1] at h2
  refine h2.trans ?_
  simp only [BitVec.toNat_ofFin]
  omega

theorem wordXYN_toNat (c : BitVec 4) (x y : VReg) (n : BitVec 4) :
    (wordXYN c x y n).toNat = c.toNat * 4096 + x.val * 256 + y.val * 16 + n.toNat := by
  have h1 := append_toNat c (BitVec.ofFin (w := 4) x)
  have h2 := append_toNat (c ++ BitVec.ofFin (w := 4) x) (BitVec.ofFin (w := 4) y)
  have h3 := append_toNat (c ++ BitVec.ofFin (w := 4) x ++ BitVec.ofFin (w := 4) y) n
  rw [h2, h1] at h3
  refine h3.trans ?_
  simp only [BitVec.toNat_ofFin]
  omega

theorem wordNNN_toNat (c : BitVec 4) (nnn : Addr12) :
    (wordNNN c nnn).toNat = c.toNat * 4096 + nnn.toNat := append_toNat c nnn

namespace ClassNibble

/-- The class nibble that the pattern of an instruction's row begins with (R90). -/
def classOf : Instr → Nat
  | .cls | .ret => 0x0
  | .jp _ => 0x1
  | .call _ => 0x2
  | .seImm _ _ => 0x3
  | .sneImm _ _ => 0x4
  | .seReg _ _ => 0x5
  | .ldImm _ _ => 0x6
  | .addImm _ _ => 0x7
  | .ldReg _ _ | .orReg _ _ | .andReg _ _ | .xorReg _ _ | .addReg _ _ | .sub _ _ | .shr _ _
  | .subn _ _ | .shl _ _ => 0x8
  | .sneReg _ _ => 0x9
  | .ldI _ => 0xA
  | .jpV0 _ => 0xB
  | .rnd _ _ => 0xC
  | .drw _ _ _ => 0xD
  | .skp _ | .sknp _ => 0xE
  | .ldVxDt _ | .ldVxK _ | .ldDtVx _ | .ldStVx _ | .addIVx _ | .ldFVx _ | .ldBVx _
  | .storeRegs _ | .loadRegs _ => 0xF

/-- The top nibble of an instruction's word is the class of its row. -/
def Statement (i : Instr) : Prop := (encode i).toNat / 4096 = classOf i

theorem ofXKK {c : BitVec 4} {x : VReg} {kk : Byte} : (wordXKK c x kk).toNat / 4096 = c.toNat := by
  have := x.isLt
  have := kk.isLt
  rw [wordXKK_toNat]
  omega

theorem ofXYN {c : BitVec 4} {x y : VReg} {n : BitVec 4} :
    (wordXYN c x y n).toNat / 4096 = c.toNat := by
  have := x.isLt
  have := y.isLt
  have := n.isLt
  rw [wordXYN_toNat]
  omega

theorem ofNNN {c : BitVec 4} {nnn : Addr12} : (wordNNN c nnn).toNat / 4096 = c.toNat := by
  have := nnn.isLt
  rw [wordNNN_toNat]
  omega

theorem cls : Statement .cls := rfl
theorem ret : Statement .ret := rfl
theorem jp (nnn : Addr12) : Statement (.jp nnn) := ofNNN
theorem call (nnn : Addr12) : Statement (.call nnn) := ofNNN
theorem seImm (x : VReg) (kk : Byte) : Statement (.seImm x kk) := ofXKK
theorem sneImm (x : VReg) (kk : Byte) : Statement (.sneImm x kk) := ofXKK
theorem seReg (x y : VReg) : Statement (.seReg x y) := ofXYN
theorem ldImm (x : VReg) (kk : Byte) : Statement (.ldImm x kk) := ofXKK
theorem addImm (x : VReg) (kk : Byte) : Statement (.addImm x kk) := ofXKK
theorem ldReg (x y : VReg) : Statement (.ldReg x y) := ofXYN
theorem orReg (x y : VReg) : Statement (.orReg x y) := ofXYN
theorem andReg (x y : VReg) : Statement (.andReg x y) := ofXYN
theorem xorReg (x y : VReg) : Statement (.xorReg x y) := ofXYN
theorem addReg (x y : VReg) : Statement (.addReg x y) := ofXYN
theorem sub (x y : VReg) : Statement (.sub x y) := ofXYN
theorem shr (x y : VReg) : Statement (.shr x y) := ofXYN
theorem subn (x y : VReg) : Statement (.subn x y) := ofXYN
theorem shl (x y : VReg) : Statement (.shl x y) := ofXYN
theorem sneReg (x y : VReg) : Statement (.sneReg x y) := ofXYN
theorem ldI (nnn : Addr12) : Statement (.ldI nnn) := ofNNN
theorem jpV0 (nnn : Addr12) : Statement (.jpV0 nnn) := ofNNN
theorem rnd (x : VReg) (kk : Byte) : Statement (.rnd x kk) := ofXKK
theorem drw (x y : VReg) (n : Fin 16) : Statement (.drw x y n) := ofXYN
theorem skp (x : VReg) : Statement (.skp x) := ofXKK
theorem sknp (x : VReg) : Statement (.sknp x) := ofXKK
theorem ldVxDt (x : VReg) : Statement (.ldVxDt x) := ofXKK
theorem ldVxK (x : VReg) : Statement (.ldVxK x) := ofXKK
theorem ldDtVx (x : VReg) : Statement (.ldDtVx x) := ofXKK
theorem ldStVx (x : VReg) : Statement (.ldStVx x) := ofXKK
theorem addIVx (x : VReg) : Statement (.addIVx x) := ofXKK
theorem ldFVx (x : VReg) : Statement (.ldFVx x) := ofXKK
theorem ldBVx (x : VReg) : Statement (.ldBVx x) := ofXKK
theorem storeRegs (x : VReg) : Statement (.storeRegs x) := ofXKK
theorem loadRegs (x : VReg) : Statement (.loadRegs x) := ofXKK

end ClassNibble

end Sys2Proof.Laws
end

