-- ==== Sys2Proof/Machine/Signals.lean ====
section
/-! DEFINITION. The signal-level rendering of 10_state.md R54: the commands a transaction is sent as, what the
block does with a command, and the outputs. The spec calls it informative, so nothing else rests on it. The
handshake wires `cmd_valid`, `cmd_ready` and `done` only time the commands and are left out (log entry 13);
what R54 leaves open is settled in log entry 14. -/

namespace Sys2Proof.Machine

/-- One accepted command: `cmd_op` and `cmd_data`. -/
structure Command where
  op : BitVec 3
  data : Word
deriving DecidableEq, Repr

/-- RESET. DESIGN CHOICE (log entry 14): R54 gives its `cmd_data` no value; the model sends 0. -/
def Command.reset : Command := { op := 0, data := 0 }

/-- STEP. DESIGN CHOICE (log entry 14): R54 gives its `cmd_data` no value; the model sends 0. -/
def Command.step : Command := { op := 1, data := 0 }

/-- LOAD_BEGIN(len). -/
def Command.loadBegin (len : Nat) : Command := { op := 2, data := trunc16 len }

/-- LOAD_BYTE: the byte in `[7:0]`. DESIGN CHOICE (log entry 14): R54 gives the bits `[15:8]` no value; the
model sends 0. -/
def Command.loadByte (b : Byte) : Command := { op := 3, data := trunc16 b.toNat }

/-- SET_KEY: the index in `[7:0]`, pressed in `[8]`; the caller has checked that the index fits. DESIGN
CHOICE (log entry 14): R54 gives the bits `[15:9]` no value; the model sends 0. -/
def Command.setKey (index : Nat) (pressed : Bool) : Command :=
  { op := 4, data := trunc16 (index + if pressed then 256 else 0) }

/-- CLEAR_DRAW. DESIGN CHOICE (log entry 14): R54 gives its `cmd_data` no value; the model sends 0. -/
def Command.clearDraw : Command := { op := 5, data := 0 }

/-- `load_err`: a LOAD_BEGIN of this length is refused (70_reset_and_hazards.md R275). -/
def loadErr (len : Nat) : Bool := decide (len > Config.maxProgLen)

/-- The commands of a transaction, in order; a read is no command. DESIGN CHOICE (log entry 14): a LOAD that
is too long is sent as its LOAD_BEGIN alone, and a transaction whose length or index does not fit `cmd_data`
has no commands. -/
def Transaction.commands : Transaction → Option (List Command)
  | .reset => some [.reset]
  | .step _ => some [.step]
  | .load bytes =>
    if programTooLong bytes then
      if bytes.length < 65536 then some [.loadBegin bytes.length] else none
    else some (.loadBegin bytes.length :: bytes.map .loadByte)
  | .setKey index pressed => if index < 256 then some [.setKey index pressed] else none
  | .clearDraw => some [.clearDraw]
  | .readFb => some []
  | .readDrawPending => some []
  | .readStatus => some []

/-- The `rand8` input a transaction is sent with, where it has one. -/
def Transaction.rand8Input : Transaction → Option Byte
  | .step rand8 => some rand8
  | .reset | .load _ | .setKey _ _ | .clearDraw | .readFb | .readDrawPending | .readStatus => none

/-! ## The block's side of the port -/

/-- Where the port stands in a LOAD. -/
inductive LoadPhase where
  /-- No LOAD is under way. -/
  | idle
  /-- The next LOAD_BYTE goes to `addr`; `left` bytes are still to come. -/
  | copying (addr left : Nat)
  /-- The last LOAD_BEGIN was refused; the LOAD_BYTEs that follow are ignored. -/
  | refused
deriving DecidableEq, Repr

/-- The phase with `left` bytes still to come, from `addr` on. -/
def LoadPhase.remaining (addr left : Nat) : LoadPhase := if left = 0 then .idle else .copying addr left

/-- The block behind its command port. -/
structure Port where
  block : State
  load : LoadPhase
deriving DecidableEq, Repr

/-- The port after reset: no LOAD is under way. -/
def Port.reset : Port := { block := State.reset, load := .idle }

/-- Why a command has no meaning. Each is safe: the port stops where R54 says nothing, or forbids the
command (log entry 14). -/
inductive PortRefusal where
  /-- Raised by `Port.accept` for `cmd_op` 6 and 7, which R54 gives no command. -/
  | undefinedOp (op : BitVec 3)
  /-- Raised by `Port.loadByte` for a LOAD_BYTE that belongs to no LOAD_BEGIN. -/
  | loadByteOutsideLoad
  /-- Raised by `Port.accept` for a command other than LOAD_BYTE before the LOAD has its last byte: no STEP
  may be issued there (R54), and transactions never overlap (R52). -/
  | commandInsideLoad
  /-- Raised by `Port.perform`: the block's own refusal. -/
  | block (r : Refusal)
deriving DecidableEq, Repr

/-- A transaction that one command carries whole. -/
def Port.perform (p : Port) (tr : Transaction) : Host.Outcome Port Fault PortRefusal :=
  match transact tr p.block with
  | .next q => .next { block := q.1, load := .idle }
  | .fault r => .fault r
  | .refused r => .refused (.block r)

/-- LOAD_BEGIN(len): refused when too long, with no state change (R274, R275). -/
def Port.loadBegin (p : Port) (len : Nat) : Port :=
  { p with load := if loadErr len then .refused else .remaining Config.progBase len }

/-- LOAD_BYTE: stored at the next address of the LOAD, or ignored after a refused LOAD_BEGIN. -/
def Port.loadByte (p : Port) (b : Byte) : Host.Outcome Port Fault PortRefusal :=
  match p.load with
  | .idle => .refused .loadByteOutsideLoad
  | .copying addr left =>
    .next { block := p.block.writeByte addr b, load := .remaining (addr + 1) (left - 1) }
  | .refused => .next p

/-- More LOAD_BYTEs are to come. -/
def LoadPhase.isCopying : LoadPhase → Bool
  | .copying _ _ => true
  | .idle | .refused => false

/-- One accepted command, with the `rand8` input as it stands. The bits of `cmd_data` that R54 gives no
meaning are not read. -/
def Port.accept (p : Port) (rand8 : Byte) (c : Command) : Host.Outcome Port Fault PortRefusal :=
  if c.op = 3 then p.loadByte (lowByte c.data)
  else if p.load.isCopying then .refused .commandInsideLoad
  else
    match c.op.toNat with
    | 0 => p.perform .reset
    | 1 => p.perform (.step rand8)
    | 2 => .next (p.loadBegin c.data.toNat)
    | 4 => p.perform (.setKey (lowByte c.data).toNat (c.data.getLsbD 8))
    | 5 => p.perform .clearDraw
    | _ => .refused (.undefinedOp c.op)

/-- Commands one after another, the `rand8` input held. -/
def Port.acceptAll (rand8 : Byte) : List Command → Port → Host.Outcome Port Fault PortRefusal
  | [], p => .next p
  | c :: cs, p =>
    match p.accept rand8 c with
    | .next q => Port.acceptAll rand8 cs q
    | .fault r => .fault r
    | .refused r => .refused r

/-! ## Outputs -/

/-- The output signals. `report_opcode` and `report_pc` mean something only with `report_valid`, so the
three are one optional report. -/
structure Signals where
  toneActive : Bool
  report : Option Report
  halted : Bool
  /-- The code of 60_exceptions.md R230, 0 while RUNNING. -/
  faultCode : BitVec 3
  drawPending : Bool
deriving DecidableEq, Repr

/-- The outputs in a state: `tone` and `report` of the last completed STEP, which every other transaction
keeps, STATUS and DRAW_PENDING. -/
def State.signals (s : State) : Signals where
  toneActive := s.out.tone
  report := s.out.report
  halted := decide (s.status ≠ .running)
  faultCode := BitVec.ofNat 3 s.status.code
  drawPending := s.drawPending

/-- The output `load_err`. DESIGN CHOICE (log entry 14): it stands from the refused LOAD_BEGIN until the next
command that is no LOAD_BYTE. -/
def Port.loadErrSignal (p : Port) : Bool := decide (p.load = .refused)

/-- The framebuffer read port: `fb_rdata` for `fb_raddr`. -/
def State.fbReadPort (s : State) (addr : BitVec 11) : Bool := Framebuffer.get s.fb addr.toNat

end Sys2Proof.Machine
end

