-- ==== Sys2Proof/Laws/Signals.lean ====
section
/-! SUPPORT. The command port carries every transaction it has commands for (10_state.md R54), and it keeps
the canonical form of memory. -/

namespace Sys2Proof.Machine

@[simp] theorem LoadPhase.remaining_zero (addr : Nat) : LoadPhase.remaining addr 0 = .idle := rfl
@[simp] theorem LoadPhase.remaining_succ (addr n : Nat) :
    LoadPhase.remaining addr (n + 1) = .copying addr (n + 1) := by simp [LoadPhase.remaining]

theorem lowByte_loadByte (b : Byte) : lowByte (Command.loadByte b).data = b := by
  revert b; decide

theorem Port.accept_loadByte (p : Port) (r b : Byte) :
    p.accept r (.loadByte b) = p.loadByte b := by
  show p.loadByte (lowByte (Command.loadByte b).data) = p.loadByte b
  rw [lowByte_loadByte]

/-- The LOAD_BYTEs of a LOAD write its bytes at rising addresses and end it. -/
theorem Port.acceptAll_loadBytes (r : Byte) (bytes : List Byte) (s : State) (addr : Nat) :
    Port.acceptAll r (bytes.map .loadByte) { block := s, load := .remaining addr bytes.length } =
      .next { block := s.writeBytes addr bytes, load := .idle } := by
  induction bytes generalizing s addr with
  | nil => rfl
  | cons b bytes ih =>
    simp only [List.map_cons, Port.acceptAll, Port.accept_loadByte, List.length_cons,
      LoadPhase.remaining_succ, Port.loadByte]
    exact ih _ _

/-- After a refused LOAD_BEGIN every LOAD_BYTE is ignored. -/
theorem Port.acceptAll_loadBytes_refused (r : Byte) (bytes : List Byte) {p : Port}
    (h : p.load = .refused) : Port.acceptAll r (bytes.map .loadByte) p = .next p := by
  induction bytes with
  | nil => rfl
  | cons b bytes ih =>
    simp only [List.map_cons, Port.acceptAll, Port.accept_loadByte, Port.loadByte, h]
    exact ih

theorem loadBegin_toNat {n : Nat} (h : n < 65536) : (Command.loadBegin n).data.toNat = n := by
  simp [Command.loadBegin, trunc16]; omega

theorem setKey_fields {index : Nat} (h : index < 256) (pressed : Bool) :
    (lowByte (Command.setKey index pressed).data).toNat = index ∧
    (Command.setKey index pressed).data.getLsbD 8 = pressed := by
  have hn : (index + if pressed then 256 else 0) % 65536 = index + if pressed then 256 else 0 :=
    Nat.mod_eq_of_lt (by split <;> omega)
  constructor
  · simp only [lowByte, Command.setKey, trunc16, BitVec.extractLsb'_toNat, BitVec.toNat_ofNat, hn]
    simp only [Nat.shiftRight_zero]
    split <;> omega
  · simp only [Command.setKey, trunc16, BitVec.getLsbD_ofNat, Nat.testBit_eq_decide_div_mod_eq]
    cases pressed <;> simp <;> omega

/-- The commands of a transaction, sent to a port with no LOAD under way and with the transaction's `rand8`,
leave the state the transaction leaves, and no LOAD under way. -/
theorem Port.acceptAll_commands {tr : Transaction} {cs : List Command} {s t : State} {a : Response}
    {ph : LoadPhase} {r : Byte} (hcs : tr.commands = some cs) (ht : transact tr s = .next (t, a))
    (hph : ph.isCopying = false) (hr : ∀ b, tr.rand8Input = some b → r = b) :
    ∃ ph', ph'.isCopying = false ∧
      Port.acceptAll r cs { block := s, load := ph } = .next { block := t, load := ph' } := by
  have single : ∀ (tr' : Transaction), transact tr' s = .next (t, a) →
      Port.perform { block := s, load := ph } tr' = .next { block := t, load := .idle } := by
    intro tr' h; simp only [Port.perform, h]
  cases tr with
  | reset =>
    cases hcs
    refine ⟨.idle, rfl, ?_⟩
    simp [Port.acceptAll, Port.accept, Command.reset, hph, single _ ht]
  | step b =>
    cases hcs
    cases hr b rfl
    refine ⟨.idle, rfl, ?_⟩
    simp [Port.acceptAll, Port.accept, Command.step, hph, single _ ht]
  | load bytes =>
    simp only [Transaction.commands] at hcs
    simp only [transact] at ht
    split at hcs
    · next hlong =>
      split at hcs
      · next hfit =>
        cases hcs
        cases ht
        have hs : s.load bytes = s := by simp [State.load, hlong]
        have he : loadErr bytes.length = true := hlong
        refine ⟨.refused, rfl, ?_⟩
        simp only [Port.acceptAll, Port.accept, loadBegin_toNat hfit, hph]
        simp [Command.loadBegin, Port.loadBegin, he, hs]
      · cases hcs
    · next hshort =>
      cases hcs
      cases ht
      have hs : s.load bytes = s.writeBytes Config.progBase bytes := by simp [State.load, hshort]
      have hle : ¬ bytes.length > 3584 := fun h => hshort (decide_eq_true h)
      have he : loadErr bytes.length = false := by
        have : programTooLong bytes = false := by simpa using hshort
        exact this
      refine ⟨.idle, rfl, ?_⟩
      have hb : Port.accept { block := s, load := ph } r (.loadBegin bytes.length) =
          .next { block := s, load := .remaining Config.progBase bytes.length } := by
        simp only [Port.accept, loadBegin_toNat (show bytes.length < 65536 by omega), hph]
        simp [Command.loadBegin, Port.loadBegin, he]
      simp only [Port.acceptAll, hb, hs]
      exact Port.acceptAll_loadBytes r bytes s _
  | setKey index pressed =>
    simp only [Transaction.commands] at hcs
    split at hcs
    · next hfit =>
      cases hcs
      have hf := setKey_fields hfit pressed
      refine ⟨.idle, rfl, ?_⟩
      simp only [Port.acceptAll, Port.accept, hf.1, hf.2, hph]
      simp [Command.setKey, single _ ht]
    · cases hcs
  | clearDraw =>
    cases hcs
    refine ⟨.idle, rfl, ?_⟩
    simp [Port.acceptAll, Port.accept, Command.clearDraw, hph, single _ ht]
  | readFb => cases hcs; cases ht; exact ⟨ph, hph, rfl⟩
  | readDrawPending => cases hcs; cases ht; exact ⟨ph, hph, rfl⟩
  | readStatus => cases hcs; cases ht; exact ⟨ph, hph, rfl⟩

/-- The bytes a LOAD has still to write stay inside memory. -/
def LoadPhase.InMemory : LoadPhase → Prop
  | .copying addr left => 0 < left ∧ addr + left ≤ Config.memSize
  | .idle | .refused => True

theorem Port.loadBegin_inMemory (p : Port) (len : Nat) : (p.loadBegin len).load.InMemory := by
  unfold Port.loadBegin loadErr LoadPhase.remaining
  by_cases h : len > 3584
  · simp [Config.maxProgLen, Config.memSize, Config.progBase, h, LoadPhase.InMemory]
  · by_cases h0 : len = 0
    · simp [h0, LoadPhase.InMemory]
    · have hb : 0 < len ∧ 512 + len ≤ 4096 := by omega
      simpa [Config.maxProgLen, Config.memSize, Config.progBase, h, h0, LoadPhase.InMemory] using hb

/-- A LOAD_BYTE keeps memory canonical and the rest of the LOAD inside memory. -/
theorem Port.loadByte_keeps {p q : Port} {b : Byte} (h : p.loadByte b = .next q)
    (hm : Memory.wf p.block.params.font p.block.mem) (hl : p.load.InMemory) :
    Memory.wf q.block.params.font q.block.mem ∧ q.load.InMemory := by
  unfold Port.loadByte at h
  split at h
  · cases h
  · next addr left hp =>
    cases h
    rw [hp] at hl
    obtain ⟨h0, h1⟩ := hl
    refine ⟨Memory.wf_write _ hm (by omega) b, ?_⟩
    unfold LoadPhase.remaining
    split
    · trivial
    · exact ⟨by omega, by omega⟩
  · cases h; exact ⟨hm, hl⟩

end Sys2Proof.Machine
end

