-- ==== Sys2Proof/Laws/Step.lean ====
section
/-! SUPPORT. What a STEP can do, said once (40_cycle.md R100), and what no instruction touches. -/

namespace Sys2Proof.Machine

/-- The four ways a STEP answers a next state: it finds the block halted, its fetch is out of bounds, its
word is no instruction, or it runs the decoded instruction. -/
theorem step_cases {s t : State} (h : step s = .next t) :
    (∃ k, s.status = .halted k ∧ t = s.finish none) ∨
    (s.status = .running ∧ s.fetchOutOfBounds = true ∧
      t = (s.raiseFatal .instructionFetchOutOfBounds).finish none) ∨
    (s.status = .running ∧ s.fetchOutOfBounds = false ∧
      ∃ w, decode s.params.fullSet s.fetchWord = .error (.unknownOpcode w) ∧
        t = s.skipUnknown.finish (some ⟨w, s.pc⟩)) ∨
    (s.status = .running ∧ s.fetchOutOfBounds = false ∧
      ∃ i u, decode s.params.fullSet s.fetchWord = .ok i ∧ exec i s = .next u ∧
        t = u.finish none) := by
  unfold step at h
  split at h
  · next k hk => exact .inl ⟨k, hk, by cases h; rfl⟩
  · next hr =>
    split at h
    · next ho => exact .inr (.inl ⟨hr, ho, by cases h; rfl⟩)
    · next ho =>
      have ho : s.fetchOutOfBounds = false := by simpa using ho
      split at h
      · next i hi =>
        refine .inr (.inr (.inr ⟨hr, ho, i, ?_⟩))
        unfold completeStep at h
        split at h
        · next u hu => exact ⟨u, hi, hu, by cases h; rfl⟩
        · cases h
        · cases h
      · next w hw => exact .inr (.inr (.inl ⟨hr, ho, w, hw, by cases h; rfl⟩))

/-- The end of a STEP touches the timers, the random input and the result only. -/
theorem finish_frame (s : State) (r : Option Report) :
    (s.finish r).v = s.v ∧ (s.finish r).i = s.i ∧ (s.finish r).pc = s.pc ∧
    (s.finish r).stack = s.stack ∧ (s.finish r).sp = s.sp ∧ (s.finish r).fb = s.fb ∧
    (s.finish r).drawPending = s.drawPending ∧ (s.finish r).status = s.status ∧
    (s.finish r).keys = s.keys ∧ (s.finish r).mem = s.mem ∧ (s.finish r).params = s.params := by
  unfold State.finish
  split <;> simp_all

/-- No execution touches the keys, the parameters, the random input or the last result
(10_state.md R33, R35). -/
theorem exec_keeps_inputs {i : Instr} {s t : State} (h : exec i s = .next t) :
    t.keys = s.keys ∧ t.params = s.params ∧ t.randIn = s.randIn ∧ t.randCount = s.randCount ∧
      t.out = s.out := by
  cases i
  case ret => simp only [exec, execRet] at h; split at h <;> cases h <;> simp
  case call nnn => simp only [exec, execCall] at h; split at h <;> cases h <;> simp
  case drw x y n => simp only [exec, execDrw] at h; split at h <;> cases h <;> simp
  case ldVxK x => simp only [exec, execLdVxK] at h; split at h <;> cases h <;> simp
  case ldBVx x => simp only [exec, execLdBVx] at h; split at h <;> cases h <;> simp
  case storeRegs x => simp only [exec, execStoreRegs] at h; split at h <;> cases h <;> simp
  case loadRegs x => simp only [exec, execLoadRegs] at h; split at h <;> cases h <;> simp
  all_goals cases h; simp

end Sys2Proof.Machine
end

