-- ==== Sys2Proof/Tests/Slice0.lean ====
section
/-! SUPPORT. Tests. Words come from the patterns of 30_encoding.md R90, written out by hand; the expected
values come from 95_test_vectors.md, whose vector each docstring or comment names. Witnesses at the end show
that the hypotheses of every statement can be met. -/

namespace Sys2Proof.Tests

open Sys2Proof Sys2Proof.Machine

/-! ## Well-formedness and decoding -/

/-- The one check of well-formedness: an instruction of `FULL_SET` is no instruction without it (R6). -/
theorem test_wellFormed_refuses_fullSet_instruction : wellFormed false (.skp 2) = false := by decide

theorem test_wellFormed_accepts : wellFormed true (.skp 2) = true ∧ wellFormed false (.jp 0x200#12) = true := by
  decide

/-- R86, A26, A27, Y8, F20: words of no row. -/
theorem test_decode_unknown :
    decode false 0x8018#16 = .error (.unknownOpcode 0x8018#16) ∧
    decode true 0x801F#16 = .error (.unknownOpcode 0x801F#16) ∧
    decode false 0xE09E#16 = .error (.unknownOpcode 0xE09E#16) ∧
    decode false 0xF007#16 = .error (.unknownOpcode 0xF007#16) ∧
    decode true 0xF099#16 = .error (.unknownOpcode 0xF099#16) := by decide

/-- R89, Y7: class 0 is matched on the whole word. -/
theorem test_decode_class0 :
    decode true 0x0000#16 = .error (.unknownOpcode 0x0000#16) ∧
    decode true 0x00E1#16 = .error (.unknownOpcode 0x00E1#16) ∧
    decode true 0x01E0#16 = .error (.unknownOpcode 0x01E0#16) ∧
    decode true 0x0FEE#16 = .error (.unknownOpcode 0x0FEE#16) := by decide

theorem test_decodeTableWord :
    decodeTableWord 16 0x00EE = some .ret ∧ decodeTableWord 16 0xF265 = some (.loadRegs 2) := by decide

/-! One word of each constructor, bit by bit (class, then fields), with the mask and code of its row: the word
matches the row, and it decodes in each configuration that has the row. -/

theorem test_decode_cls : decode true 0b0000_0000_1110_0000#16 = .ok (.cls) ∧
    decode false 0b0000_0000_1110_0000#16 = .ok (.cls) := by decide

theorem test_decode_ret : decode true 0b0000_0000_1110_1110#16 = .ok (.ret) ∧
    decode false 0b0000_0000_1110_1110#16 = .ok (.ret) := by decide

theorem test_decode_jp : 0b0001_1010_1011_1100#16 &&& 0xF000#16 = 0x1000#16 ∧ 
    decode true 0b0001_1010_1011_1100#16 = .ok (.jp 0xABC#12) ∧
    decode false 0b0001_1010_1011_1100#16 = .ok (.jp 0xABC#12) := by decide

theorem test_decode_call : 0b0010_0011_0000_0001#16 &&& 0xF000#16 = 0x2000#16 ∧ 
    decode true 0b0010_0011_0000_0001#16 = .ok (.call 0x301#12) ∧
    decode false 0b0010_0011_0000_0001#16 = .ok (.call 0x301#12) := by decide

theorem test_decode_seImm : 0b0011_0100_0110_0111#16 &&& 0xF000#16 = 0x3000#16 ∧ 
    decode true 0b0011_0100_0110_0111#16 = .ok (.seImm 4 0x67#8) ∧
    decode false 0b0011_0100_0110_0111#16 = .ok (.seImm 4 0x67#8) := by decide

theorem test_decode_sneImm : 0b0100_0011_0100_0010#16 &&& 0xF000#16 = 0x4000#16 ∧ 
    decode true 0b0100_0011_0100_0010#16 = .ok (.sneImm 3 0x42#8) ∧
    decode false 0b0100_0011_0100_0010#16 = .ok (.sneImm 3 0x42#8) := by decide

theorem test_decode_seReg : 0b0101_0001_0010_0111#16 &&& 0xF000#16 = 0x5000#16 ∧ 
    decode true 0b0101_0001_0010_0111#16 = .ok (.seReg 1 2) ∧
    decode false 0b0101_0001_0010_0111#16 = .ok (.seReg 1 2) := by decide

theorem test_decode_ldImm : 0b0110_1010_0100_0010#16 &&& 0xF000#16 = 0x6000#16 ∧ 
    decode true 0b0110_1010_0100_0010#16 = .ok (.ldImm 10 0x42#8) ∧
    decode false 0b0110_1010_0100_0010#16 = .ok (.ldImm 10 0x42#8) := by decide

theorem test_decode_addImm : 0b0111_1111_0000_0011#16 &&& 0xF000#16 = 0x7000#16 ∧ 
    decode true 0b0111_1111_0000_0011#16 = .ok (.addImm 15 0x03#8) ∧
    decode false 0b0111_1111_0000_0011#16 = .ok (.addImm 15 0x03#8) := by decide

theorem test_decode_ldReg : 0b1000_0001_0010_0000#16 &&& 0xF00F#16 = 0x8000#16 ∧ 
    decode true 0b1000_0001_0010_0000#16 = .ok (.ldReg 1 2) ∧
    decode false 0b1000_0001_0010_0000#16 = .ok (.ldReg 1 2) := by decide

theorem test_decode_orReg : 0b1000_0001_0010_0001#16 &&& 0xF00F#16 = 0x8001#16 ∧ 
    decode true 0b1000_0001_0010_0001#16 = .ok (.orReg 1 2) ∧
    decode false 0b1000_0001_0010_0001#16 = .ok (.orReg 1 2) := by decide

theorem test_decode_andReg : 0b1000_0001_0010_0010#16 &&& 0xF00F#16 = 0x8002#16 ∧ 
    decode true 0b1000_0001_0010_0010#16 = .ok (.andReg 1 2) ∧
    decode false 0b1000_0001_0010_0010#16 = .ok (.andReg 1 2) := by decide

theorem test_decode_xorReg : 0b1000_0001_0010_0011#16 &&& 0xF00F#16 = 0x8003#16 ∧ 
    decode true 0b1000_0001_0010_0011#16 = .ok (.xorReg 1 2) ∧
    decode false 0b1000_0001_0010_0011#16 = .ok (.xorReg 1 2) := by decide

theorem test_decode_addReg : 0b1000_0001_0010_0100#16 &&& 0xF00F#16 = 0x8004#16 ∧ 
    decode true 0b1000_0001_0010_0100#16 = .ok (.addReg 1 2) ∧
    decode false 0b1000_0001_0010_0100#16 = .ok (.addReg 1 2) := by decide

theorem test_decode_sub : 0b1000_0001_0010_0101#16 &&& 0xF00F#16 = 0x8005#16 ∧ 
    decode true 0b1000_0001_0010_0101#16 = .ok (.sub 1 2) ∧
    decode false 0b1000_0001_0010_0101#16 = .ok (.sub 1 2) := by decide

theorem test_decode_shr : 0b1000_0001_0010_0110#16 &&& 0xF00F#16 = 0x8006#16 ∧ 
    decode true 0b1000_0001_0010_0110#16 = .ok (.shr 1 2) ∧
    decode false 0b1000_0001_0010_0110#16 = .ok (.shr 1 2) := by decide

theorem test_decode_subn : 0b1000_0001_0010_0111#16 &&& 0xF00F#16 = 0x8007#16 ∧ 
    decode true 0b1000_0001_0010_0111#16 = .ok (.subn 1 2) ∧
    decode false 0b1000_0001_0010_0111#16 = .ok (.subn 1 2) := by decide

theorem test_decode_shl : 0b1000_0001_0010_1110#16 &&& 0xF00F#16 = 0x800E#16 ∧ 
    decode true 0b1000_0001_0010_1110#16 = .ok (.shl 1 2) ∧
    decode false 0b1000_0001_0010_1110#16 = .ok (.shl 1 2) := by decide

theorem test_decode_sneReg : 0b1001_0001_0010_0001#16 &&& 0xF000#16 = 0x9000#16 ∧ 
    decode true 0b1001_0001_0010_0001#16 = .ok (.sneReg 1 2) ∧
    decode false 0b1001_0001_0010_0001#16 = .ok (.sneReg 1 2) := by decide

theorem test_decode_ldI : 0b1010_0011_0000_0101#16 &&& 0xF000#16 = 0xA000#16 ∧ 
    decode true 0b1010_0011_0000_0101#16 = .ok (.ldI 0x305#12) ∧
    decode false 0b1010_0011_0000_0101#16 = .ok (.ldI 0x305#12) := by decide

theorem test_decode_jpV0 : 0b1011_0011_0000_0110#16 &&& 0xF000#16 = 0xB000#16 ∧ 
    decode true 0b1011_0011_0000_0110#16 = .ok (.jpV0 0x306#12) ∧
    decode false 0b1011_0011_0000_0110#16 = .ok (.jpV0 0x306#12) := by decide

theorem test_decode_rnd : 0b1100_0011_0000_1111#16 &&& 0xF000#16 = 0xC000#16 ∧ 
    decode true 0b1100_0011_0000_1111#16 = .ok (.rnd 3 0x0F#8) ∧
    decode false 0b1100_0011_0000_1111#16 = .ok (.rnd 3 0x0F#8) := by decide

theorem test_decode_drw : 0b1101_0001_0010_0101#16 &&& 0xF000#16 = 0xD000#16 ∧ 
    decode true 0b1101_0001_0010_0101#16 = .ok (.drw 1 2 5) ∧
    decode false 0b1101_0001_0010_0101#16 = .ok (.drw 1 2 5) := by decide

theorem test_decode_skp : 0b1110_0010_1001_1110#16 &&& 0xF0FF#16 = 0xE09E#16 ∧ 
    decode true 0b1110_0010_1001_1110#16 = .ok (.skp 2) ∧
    decode false 0b1110_0010_1001_1110#16 = .error (.unknownOpcode 0b1110_0010_1001_1110#16) := by decide

theorem test_decode_sknp : 0b1110_0010_1010_0001#16 &&& 0xF0FF#16 = 0xE0A1#16 ∧ 
    decode true 0b1110_0010_1010_0001#16 = .ok (.sknp 2) ∧
    decode false 0b1110_0010_1010_0001#16 = .error (.unknownOpcode 0b1110_0010_1010_0001#16) := by decide

theorem test_decode_ldVxDt : 0b1111_0011_0000_0111#16 &&& 0xF0FF#16 = 0xF007#16 ∧ 
    decode true 0b1111_0011_0000_0111#16 = .ok (.ldVxDt 3) ∧
    decode false 0b1111_0011_0000_0111#16 = .error (.unknownOpcode 0b1111_0011_0000_0111#16) := by decide

theorem test_decode_ldVxK : 0b1111_0101_0000_1010#16 &&& 0xF0FF#16 = 0xF00A#16 ∧ 
    decode true 0b1111_0101_0000_1010#16 = .ok (.ldVxK 5) ∧
    decode false 0b1111_0101_0000_1010#16 = .error (.unknownOpcode 0b1111_0101_0000_1010#16) := by decide

theorem test_decode_ldDtVx : 0b1111_0001_0001_0101#16 &&& 0xF0FF#16 = 0xF015#16 ∧ 
    decode true 0b1111_0001_0001_0101#16 = .ok (.ldDtVx 1) ∧
    decode false 0b1111_0001_0001_0101#16 = .error (.unknownOpcode 0b1111_0001_0001_0101#16) := by decide

theorem test_decode_ldStVx : 0b1111_0001_0001_1000#16 &&& 0xF0FF#16 = 0xF018#16 ∧ 
    decode true 0b1111_0001_0001_1000#16 = .ok (.ldStVx 1) ∧
    decode false 0b1111_0001_0001_1000#16 = .error (.unknownOpcode 0b1111_0001_0001_1000#16) := by decide

theorem test_decode_addIVx : 0b1111_0100_0001_1110#16 &&& 0xF0FF#16 = 0xF01E#16 ∧ 
    decode true 0b1111_0100_0001_1110#16 = .ok (.addIVx 4) ∧
    decode false 0b1111_0100_0001_1110#16 = .error (.unknownOpcode 0b1111_0100_0001_1110#16) := by decide

theorem test_decode_ldFVx : 0b1111_0100_0010_1001#16 &&& 0xF0FF#16 = 0xF029#16 ∧ 
    decode true 0b1111_0100_0010_1001#16 = .ok (.ldFVx 4) ∧
    decode false 0b1111_0100_0010_1001#16 = .error (.unknownOpcode 0b1111_0100_0010_1001#16) := by decide

theorem test_decode_ldBVx : 0b1111_0110_0011_0011#16 &&& 0xF0FF#16 = 0xF033#16 ∧ 
    decode true 0b1111_0110_0011_0011#16 = .ok (.ldBVx 6) ∧
    decode false 0b1111_0110_0011_0011#16 = .error (.unknownOpcode 0b1111_0110_0011_0011#16) := by decide

theorem test_decode_storeRegs : 0b1111_0001_0101_0101#16 &&& 0xF0FF#16 = 0xF055#16 ∧ 
    decode true 0b1111_0001_0101_0101#16 = .ok (.storeRegs 1) ∧
    decode false 0b1111_0001_0101_0101#16 = .error (.unknownOpcode 0b1111_0001_0101_0101#16) := by decide

theorem test_decode_loadRegs : 0b1111_0010_0110_0101#16 &&& 0xF0FF#16 = 0xF065#16 ∧ 
    decode true 0b1111_0010_0110_0101#16 = .ok (.loadRegs 2) ∧
    decode false 0b1111_0010_0110_0101#16 = .error (.unknownOpcode 0b1111_0010_0110_0101#16) := by decide

/-! ## One step

`at w f` is the reset state in the configuration `FULL_SET` with the word `w` at 0x200, changed by `f`;
`after s p` says that a step of `s` answers a next state that meets `p`. -/

/-- The reset state with `FULL_SET` on and a word at PC. -/
def start (w : Word) : State :=
  { State.reset with
    params := { Params.default with fullSet := true }
    mem := [(0x200, highByte w), (0x201, lowByte w)] }

/-- A step answers a next state that meets `p`. -/
def after (s : State) (p : State → Bool) : Bool :=
  match step s with
  | .next t => p t
  | .fault _ => false
  | .refused _ => false

/-- The pixels listed are on. -/
def lit (t : State) (ks : List Nat) : Bool := ks.all fun k => Framebuffer.get t.fb k

/-- So many pixels are on in these lines. -/
def litInLines (t : State) (lines : List Nat) : Nat :=
  ((lines.flatMap fun y => (List.range 64).map fun x => t.pixel x y).filter id).length

/-- G1 -/
theorem test_cls :
    after ({ (start 0x00E0#16).setV 15 0x07#8 with fb := Framebuffer.toggle State.reset.fb 5 })
      (fun t => t.fb == Framebuffer.clear && t.drawPending && t.V 15 == 0x07#8 && t.pc == 0x202#16) = true := by decide

/-- J8 -/
theorem test_ret :
    after ({ start 0x00EE#16 with sp := 1, stack := State.reset.stack.set 0 0x456#16 })
      (fun t => t.pc == 0x456#16 && t.sp == 0 && t.stack[0] == 0#16) = true := by decide

/-- J9 -/
theorem test_ret_underflow :
    after ({ start 0x00EE#16 with dt := 5 })
      (fun t => t.status == .halted .stackUnderflow && t.pc == 0x200#16 && t.dt == 5#8 &&
        t.out == ⟨false, none, some .stackUnderflow⟩) = true := by decide

/-- J1 -/
theorem test_jp :
    after (start 0x1ABC#16)
      (fun t => t.pc == 0xABC#16) = true := by decide

/-- J6 -/
theorem test_call :
    after ({ start 0x2300#16 with sp := 15 })
      (fun t => t.pc == 0x300#16 && t.sp == 16 && t.stack[15] == 0x202#16) = true := by decide

/-- J7 -/
theorem test_call_overflow :
    after ({ start 0x2300#16 with sp := 16, dt := 5 })
      (fun t => t.status == .halted .stackOverflow && t.pc == 0x200#16 && t.sp == 16 && t.dt == 5#8 &&
        t.out == ⟨false, none, some .stackOverflow⟩) = true := by decide

/-- K1 -/
theorem test_seImm_taken :
    after ((start 0x3342#16).setV 3 0x42#8)
      (fun t => t.pc == 0x204#16) = true := by decide

/-- K2 -/
theorem test_seImm_not_taken :
    after ((start 0x3342#16).setV 3 0x41#8)
      (fun t => t.pc == 0x202#16) = true := by decide

/-- K3 -/
theorem test_sneImm_not_taken :
    after ((start 0x4342#16).setV 3 0x42#8)
      (fun t => t.pc == 0x202#16) = true := by decide

/-- K4 -/
theorem test_sneImm_taken :
    after ((start 0x4342#16).setV 3 0x41#8)
      (fun t => t.pc == 0x204#16) = true := by decide

/-- K7 -/
theorem test_seReg_ignores_n :
    after (((start 0x5127#16).setV 1 0x09#8).setV 2 0x09#8)
      (fun t => t.pc == 0x204#16) = true := by decide

/-- K6 -/
theorem test_seReg_not_taken :
    after (((start 0x5120#16).setV 1 0x09#8).setV 2 0x08#8)
      (fun t => t.pc == 0x202#16) = true := by decide

/-- K10 -/
theorem test_sneReg_ignores_n :
    after (((start 0x9121#16).setV 1 0x09#8).setV 2 0x08#8)
      (fun t => t.pc == 0x204#16) = true := by decide

/-- K9 -/
theorem test_sneReg_not_taken :
    after (((start 0x9120#16).setV 1 0x09#8).setV 2 0x09#8)
      (fun t => t.pc == 0x202#16) = true := by decide

/-- B1 -/
theorem test_ldImm :
    after (start 0x6A42#16)
      (fun t => t.V 10 == 0x42#8 && t.pc == 0x202#16) = true := by decide

/-- B2, S13 -/
theorem test_addImm :
    after (((start 0x7002#16).setV 0 0xFF#8).setV 15 0x33#8)
      (fun t => t.V 0 == 0x01#8 && t.V 15 == 0x33#8) = true := by decide

/-- B3 -/
theorem test_addImm_vf :
    after ((start 0x7F01#16).setV 15 0xFF#8)
      (fun t => t.V 15 == 0x00#8) = true := by decide

/-- B4 -/
theorem test_ldI :
    after (start 0xAFFF#16)
      (fun t => t.i == 0xFFF#16 && t.pc == 0x202#16) = true := by decide

/-- J4 -/
theorem test_jpV0 :
    after ((start 0xBFFF#16).setV 0 0xFF#8)
      (fun t => t.pc == 0x10FE#16) = true := by decide

/-- B5 -/
theorem test_rnd :
    after ({ start 0xC30F#16 with randIn := [0xA5#8] })
      (fun t => t.V 3 == 0x05#8) = true := by decide

/-- B7: whatever the random byte of the STEP is, V3 becomes it. -/
theorem test_rnd_admits_every_byte (r : Byte) :
    ∃ t, exec (.rnd 3 0xFF#8) { start 0xC3FF#16 with randIn := [r] } = .next t ∧ t.V 3 = r :=
  ⟨_, rfl, by revert r; decide⟩

/-- G4: X = F is read before VF is cleared. S8 and S9: the two axes wrap. G8: the default glyph 1. -/
theorem test_drw_draws :
    after ({ ((start 0xDF11#16).setV 15 0x03#8).setV 1 0x02#8 with i := 0x300, fb := Framebuffer.toggle State.reset.fb 131, mem := [
      (0x200, 0xDF#8), (0x201, 0x11#8), (0x300, 0xC0#8)] })
      (fun t => lit t [132] && litInLines t [0, 1, 2, 3] == 1 && t.V 15 == 0x01#8) = true ∧
    after ({ (start 0xD011#16).setV 0 0x3C#8 with i := 0x300, mem := [(0x200, 0xD0#8), (0x201, 0x11#8), (0x300, 0xFF#8)] })
      (fun t => lit t [60, 61, 62, 63, 0, 1, 2, 3] && litInLines t [0, 1] == 8 && t.V 15 == 0x00#8) = true ∧
    after ({ (start 0xD012#16).setV 1 0x1F#8 with i := 0x300, mem := [
      (0x200, 0xD0#8), (0x201, 0x12#8), (0x300, 0x80#8), (0x301, 0x80#8)] })
      (fun t => lit t [1984, 0] && litInLines t [0, 1, 30, 31] == 2 && t.V 15 == 0x00#8) = true ∧
    after ({ start 0xD015#16 with i := 0x055 })
      (fun t => lit t [2, 65, 66, 130, 194, 257, 258, 259] && litInLines t [0, 1, 2, 3, 4, 5] == 8) = true := by decide

/-- G5: past the end. G6: up to the last byte. S12: no rows, no bound. -/
theorem test_drw_bound :
    after ({ (start 0xD015#16).setV 15 0x09#8 with i := 0xFFE, dt := 4 })
      (fun t => t.status == .halted .dataAccessOutOfBounds && t.V 15 == 0x09#8 && t.dt == 4#8 && !t.drawPending &&
        t.pc == 0x200#16) = true ∧
    after ({ start 0xD015#16 with i := 0xFFB })
      (fun t => t.fb == State.reset.fb && t.V 15 == 0x00#8 && t.drawPending && t.pc == 0x202#16) = true ∧
    after ({ (start 0xD010#16).setV 15 0x09#8 with i := 0xFFF })
      (fun t => t.V 15 == 0x00#8 && t.drawPending && t.pc == 0x202#16) = true := by decide

/-- A1 -/
theorem test_ldReg :
    after (((start 0x8010#16).setV 0 0x0C#8).setV 1 0x0A#8)
      (fun t => t.V 0 == 0x0A#8 && t.V 1 == 0x0A#8) = true := by decide

/-- A2 -/
theorem test_orReg :
    after ((((start 0x8011#16).setV 0 0x0C#8).setV 1 0x0A#8).setV 15 0x07#8)
      (fun t => t.V 0 == 0x0E#8 && t.V 15 == 0x07#8) = true := by decide

/-- A3 -/
theorem test_andReg :
    after ((((start 0x8012#16).setV 0 0x0C#8).setV 1 0x0A#8).setV 15 0x07#8)
      (fun t => t.V 0 == 0x08#8 && t.V 15 == 0x07#8) = true := by decide

/-- A4 -/
theorem test_xorReg :
    after ((((start 0x8013#16).setV 0 0x0C#8).setV 1 0x0A#8).setV 15 0x07#8)
      (fun t => t.V 0 == 0x06#8 && t.V 15 == 0x07#8) = true := by decide

/-- S4 -/
theorem test_addReg :
    after (((start 0x8014#16).setV 0 0xFF#8).setV 1 0x01#8)
      (fun t => t.V 0 == 0x00#8 && t.V 15 == 0x01#8) = true := by decide

/-- A7 -/
theorem test_addReg_x_is_f :
    after (((start 0x8F14#16).setV 15 0x10#8).setV 1 0x20#8)
      (fun t => t.V 15 == 0x30#8) = true := by decide

/-- S6 -/
theorem test_sub :
    after (((start 0x8015#16).setV 0 0x01#8).setV 1 0x02#8)
      (fun t => t.V 0 == 0xFF#8 && t.V 15 == 0x00#8) = true := by decide

/-- A14 -/
theorem test_sub_y_is_f :
    after (((start 0x81F5#16).setV 1 0x05#8).setV 15 0x03#8)
      (fun t => t.V 1 == 0x04#8 && t.V 15 == 0x01#8) = true := by decide

/-- A15 -/
theorem test_shr :
    after (((start 0x8016#16).setV 0 0x05#8).setV 1 0xAA#8)
      (fun t => t.V 0 == 0x02#8 && t.V 15 == 0x01#8 && t.V 1 == 0xAA#8) = true := by decide

/-- A17 -/
theorem test_shr_x_is_f :
    after ((start 0x8F06#16).setV 15 0x03#8)
      (fun t => t.V 15 == 0x00#8) = true := by decide

/-- A19 -/
theorem test_subn :
    after (((start 0x8127#16).setV 1 0x05#8).setV 2 0x02#8)
      (fun t => t.V 1 == 0xFD#8 && t.V 15 == 0x00#8) = true := by decide

/-- A22 -/
theorem test_subn_y_is_f :
    after (((start 0x81F7#16).setV 1 0x02#8).setV 15 0x05#8)
      (fun t => t.V 1 == 0xFF#8 && t.V 15 == 0x01#8) = true := by decide

/-- A23 -/
theorem test_shl :
    after ((start 0x801E#16).setV 0 0x81#8)
      (fun t => t.V 0 == 0x02#8 && t.V 15 == 0x01#8) = true := by decide

/-- A25 -/
theorem test_shl_x_is_f :
    after ((start 0x8F0E#16).setV 15 0x81#8)
      (fun t => t.V 15 == 0x02#8) = true := by decide

/-- F1 -/
theorem test_skp :
    after ({ (start 0xE29E#16).setV 2 0x05#8 with keys := State.reset.keys.set 5 true })
      (fun t => t.pc == 0x204#16) = true := by decide

/-- F2 -/
theorem test_skp_not_taken :
    after ((start 0xE29E#16).setV 2 0x05#8)
      (fun t => t.pc == 0x202#16) = true := by decide

/-- F3 -/
theorem test_sknp :
    after ((start 0xE2A1#16).setV 2 0x05#8)
      (fun t => t.pc == 0x204#16) = true := by decide

/-- F4 -/
theorem test_sknp_low_nibble :
    after ({ (start 0xE2A1#16).setV 2 0x15#8 with keys := State.reset.keys.set 5 true })
      (fun t => t.pc == 0x202#16) = true := by decide

/-- F5 -/
theorem test_ldVxDt :
    after ({ start 0xF307#16 with dt := 9 })
      (fun t => t.V 3 == 0x09#8 && t.dt == 8#8) = true := by decide

/-- F6, first step -/
theorem test_ldVxK_waits :
    after ({ (start 0xF50A#16).setV 5 0x11#8 with dt := 3 })
      (fun t => t.pc == 0x200#16 && t.V 5 == 0x11#8 && t.dt == 2#8) = true := by decide

/-- F6, second step -/
theorem test_ldVxK_least :
    after ({ start 0xF50A#16 with dt := 2, keys := (State.reset.keys.set 9 true).set 7 true })
      (fun t => t.V 5 == 0x07#8 && t.pc == 0x202#16 && t.dt == 1#8) = true := by decide

/-- F7 -/
theorem test_ldDtVx :
    after ((start 0xF115#16).setV 1 0x0A#8)
      (fun t => t.dt == 9#8 && t.pc == 0x202#16) = true := by decide

/-- F8 -/
theorem test_ldDtVx_zero :
    after ({ start 0xF115#16 with dt := 7 })
      (fun t => t.dt == 0#8) = true := by decide

/-- F9 -/
theorem test_ldStVx :
    after ((start 0xF118#16).setV 1 0x01#8)
      (fun t => t.out.tone && t.st == 0#8) = true := by decide

/-- F10 -/
theorem test_addIVx :
    after ({ ((start 0xF01E#16).setV 0 0x02#8).setV 15 0x07#8 with i := 0xFFF })
      (fun t => t.i == 0x1001#16 && t.V 15 == 0x07#8) = true := by decide

/-- F12 -/
theorem test_ldFVx :
    after ((start 0xF429#16).setV 4 0x1A#8)
      (fun t => t.i == 0x082#16) = true := by decide

/-- F13 -/
theorem test_ldBVx :
    after ({ (start 0xF033#16).setV 0 0xFE#8 with i := 0x300 })
      (fun t => t.mem == [(0x200, 0xF0#8), (0x201, 0x33#8), (0x300, 2#8), (0x301, 5#8), (0x302, 4#8)] &&
        t.i == 0x300#16) = true := by decide

/-- F14 -/
theorem test_ldBVx_out_of_bounds :
    after ({ (start 0xF033#16).setV 0 0x07#8 with i := 0xFFE })
      (fun t => t.status == .halted .dataAccessOutOfBounds && t.readByte 0xFFE == 0#8) = true := by decide

/-- F15 -/
theorem test_storeRegs :
    after ({ (((start 0xF155#16).setV 0 0x01#8).setV 1 0x02#8).setV 2 0x03#8 with i := 0x300 })
      (fun t => t.mem == [(0x200, 0xF1#8), (0x201, 0x55#8), (0x300, 1#8), (0x301, 2#8)] && t.i == 0x300#16) = true := by decide

/-- F16 -/
theorem test_storeRegs_to_the_end :
    after ({ (start 0xFF55#16).setV 15 0xEE#8 with i := 0xFF0 })
      (fun t => t.readByte 0xFFF == 0xEE#8 && t.status == .running) = true := by decide

/-- F18 -/
theorem test_loadRegs :
    after ({ (start 0xF265#16).setV 3 0x55#8 with i := 0x300, mem := [(0x200, 0xF2#8), (0x201, 0x65#8), (0x300, 0x07#8), (0x301, 0x08#8), (0x302, 0x09#8)] })
      (fun t => t.V 0 == 0x07#8 && t.V 1 == 0x08#8 && t.V 2 == 0x09#8 && t.V 3 == 0x55#8 && t.i == 0x300#16) = true := by decide

/-- F19 -/
theorem test_loadRegs_vf :
    after ({ start 0xFF65#16 with i := 0x300, mem := [(0x200, 0xFF#8), (0x201, 0x65#8), (0x30F, 0x5A#8)] })
      (fun t => t.V 15 == 0x5A#8) = true := by decide

/-! ### The step around the instruction -/

/-- A26, S10, Y7 -/
theorem test_unknown :
    after ({ ((start 0x8018#16).setV 0 0x01#8).setV 1 0x02#8 with dt := 3, st := 2 })
      (fun t => t.out == ⟨true, some ⟨0x8018#16, 0x200#16⟩, none⟩ && t.dt == 2#8 && t.st == 1#8 && t.pc == 0x202#16 &&
        t.V 0 == 0x01#8) = true := by decide

/-- Y1 -/
theorem test_last_fetch :
    after ({ State.reset with pc := 0xFFE, mem := [(0xFFE, 0x60#8), (0xFFF, 0x11#8)] })
      (fun t => t.V 0 == 0x11#8 && t.pc == 0x1000#16) = true := by decide

/-- Y2, S16 -/
theorem test_fetch_out_of_bounds :
    after ({ State.reset with pc := 0xFFF, dt := 2 })
      (fun t => t.status == .halted .instructionFetchOutOfBounds && t.dt == 2#8 && t.pc == 0xFFF#16 &&
        t.out == ⟨false, none, some .instructionFetchOutOfBounds⟩) = true := by decide

/-- Y5 -/
theorem test_odd_pc :
    after ({ State.reset with pc := 0x201, mem := [(0x201, 0x63#8), (0x202, 0x07#8)] })
      (fun t => t.V 3 == 0x07#8 && t.pc == 0x203#16) = true := by decide

/-- Y3 -/
theorem test_halted :
    after ({ State.reset with status := .halted .stackOverflow, dt := 2 })
      (fun t => t.dt == 2#8 && t.pc == 0x200#16 && t.out == ⟨false, none, some .stackOverflow⟩) = true := by decide

/-- Y6: nothing is loaded -/
theorem test_first_step_of_reset :
    after (State.reset)
      (fun t => t.pc == 0x202#16 && t.out == ⟨false, some ⟨0x0000#16, 0x200#16⟩, none⟩) = true := by decide

/-- The host places a word of each configuration. -/
theorem test_withFetchWord :
    after (State.reset.withFetchWord 16 0xF115)
      (fun t => t.out == ⟨false, none, none⟩ && t.pc == 0x202#16) = true := by decide

/-! ### Transactions -/

/-- S2: glyphs 0 and 1 of the default font after RESET. -/
theorem test_reset_font :
    (List.range 10).map (fun j => State.reset.readByte (0x050 + j)) =
      [0xF0, 0x90, 0x90, 0x90, 0xF0, 0x20, 0x60, 0x20, 0x20, 0x70] := by decide

/-- H3: LOAD writes its bytes and nothing after them. -/
theorem test_load :
    (({ State.reset with mem := [(0x200, 0x11#8), (0x201, 0x22#8), (0x202, 0x33#8)] }).load [1#8, 2#8]).mem =
      [(0x200, 1#8), (0x201, 2#8), (0x202, 0x33#8)] := by decide

/-- S15, H6 -/
theorem test_setKey :
    State.reset.setKey 16 true = State.reset ∧ (State.reset.setKey 5 true).keys[5] = true := by decide

/-- R54: a LOAD of two bytes and a SET_KEY as commands, and the outputs after a stack underflow. -/
theorem test_signals :
    (Transaction.load [0xAB#8, 0xCD#8]).commands =
      some [⟨2#3, 2#16⟩, ⟨3#3, 0xAB#16⟩, ⟨3#3, 0xCD#16⟩] ∧
    (Transaction.setKey 5 true).commands = some [⟨4#3, 0x105#16⟩] ∧
    after (start 0x00EE#16) (fun t => t.signals == ⟨false, none, true, 3#3, false⟩) = true := by decide

/-- R54: a LOAD of two bytes as commands writes them, and a command inside it is refused by name. -/
theorem test_port_load :
    (match Port.acceptAll 0 [⟨2#3, 2#16⟩, ⟨3#3, 0xAB#16⟩, ⟨3#3, 0xCD#16⟩] Port.reset with
      | .next p => p.block.mem == [(0x200, 0xAB#8), (0x201, 0xCD#8)] && p.load == .idle && !p.loadErrSignal
      | .fault _ => false
      | .refused _ => false) = true ∧
    (match Port.acceptAll 0 [⟨2#3, 2#16⟩, ⟨3#3, 0xAB#16⟩, ⟨1#3, 0#16⟩] Port.reset with
      | .next _ => false
      | .fault _ => false
      | .refused r => r == .commandInsideLoad) = true := by decide

/-- R54, S14: a LOAD_BEGIN of 3585 raises `load_err`, and the LOAD_BYTE after it is ignored. -/
theorem test_port_load_refused :
    (match Port.acceptAll 0 [⟨2#3, 3585#16⟩, ⟨3#3, 0xAB#16⟩] Port.reset with
      | .next p => p.block == State.reset && p.loadErrSignal
      | .fault _ => false
      | .refused _ => false) = true := by decide

/-- R54: after a STEP that reports and then RESET, the outputs are those of that STEP. -/
theorem test_signals_after_reset :
    (match Port.acceptAll 0 [.step, .reset] Port.reset with
      | .next p => p.block.signals == ⟨false, some ⟨0x0000#16, 0x200#16⟩, false, 0#3, false⟩ &&
          p.block.pc == 0x200#16
      | .fault _ => false
      | .refused _ => false) = true := by decide

/-! ## Witnesses: states and operands that meet the hypotheses of the statements

The `decode` hypotheses `w &&& mask = code` are met by the words of the tests `test_decode_…` above. -/

/-- A row that is enabled in one configuration only, and a word that matches it. -/
theorem witness_DecodeFollowsOpcodeMap :
    ∃ r ∈ opcodeMap, r.enabled true = true ∧ r.enabled false = false ∧ r.matchesWord 0xF265#16 = true := by decide

/-- An instruction well-formed in a configuration and one that is not. -/
theorem witness_DecodeEncodeRoundTrip :
    wellFormed true (.loadRegs 15) = true ∧ wellFormed false (.loadRegs 15) = false := by decide

/-- A word of class 5 with N = 7 and one of class 8. -/
theorem witness_EncodeDecodeRoundTrip :
    decode false 0x5127#16 = .ok (.seReg 1 2) ∧ decode false 0x8127#16 = .ok (.subn 1 2) := by decide

/-- SP = 1, SP = 16 and SP = 0. -/
theorem witness_ReturnPopsThePc :
    (0 : Fin 16).val + 1 = ({ State.reset with sp := 1 }).sp.val ∧
    (15 : Fin 16).val + 1 = ({ State.reset with sp := 16 }).sp.val ∧ State.reset.sp.val = 0 := by decide

/-- SP = 0, SP = 15 and SP = 16. -/
theorem witness_CallPushesTheReturnAddress :
    (0 : Fin 16).val = State.reset.sp.val ∧ (15 : Fin 16).val = ({ State.reset with sp := 15 }).sp.val ∧
    ({ State.reset with sp := 16 }).sp.val = 16 := by decide

/-- A call from reset; the state it answers has kept its own SP and slot. -/
theorem witness_CallThenReturnRestores :
    ∃ t, exec (.call 0x300#12) State.reset = .next t ∧ t.sp = t.sp ∧ t.stack[0] = t.stack[0] := ⟨_, rfl, rfl, rfl⟩

/-- Both sides of the carry: X not F. -/
theorem witness_AddSetsTheCarry :
    (0 : VReg) ≠ 15 ∧ (0xFF#8).toNat + (0x01#8).toNat > 255 ∧ ¬ (0xFE#8).toNat + (0x01#8).toNat > 255 := by decide

/-- The four forms of SUB and SUBN: neither, X, Y or both are F. -/
theorem witness_SubtractForms :
    ((0 : VReg) ≠ 15 ∧ (1 : VReg) ≠ 15) ∧ ((15 : VReg) = 15 ∧ (1 : VReg) ≠ 15) ∧ ((1 : VReg) ≠ 15 ∧ (15 : VReg) = 15) := by decide

/-- The two forms of SHR and SHL. -/
theorem witness_ShiftForms :
    (0 : VReg) ≠ 15 ∧ (15 : VReg) = 15 := by decide

/-- The bound met by N = 0 and at its last address; a lit pixel that is hit (G8 at (0, 0), bit 2 of row 0). -/
theorem witness_DrawTogglesSpritePixels :
    ((0 : Fin 16).val = 0 ∨ (0xFFF#16).toNat + (0 : Fin 16).val - 1 ≤ 0xFFF) ∧
    (0xFFB#16).toNat + (5 : Fin 16).val - 1 ≤ 0xFFF ∧
    ({ State.reset with i := 0x055, fb := Framebuffer.toggle State.reset.fb 2 }).pixel 2 0 = true := by decide

/-- Row 0 and bit 2 of glyph 1 hit (2, 0); no row hits (2, 31) with one row. -/
theorem witness_SpriteHits :
    ({ State.reset with i := 0x055 }).SpriteHits 0 0 1 2 0 ∧
    ¬ ({ State.reset with i := 0x055 }).SpriteHits 0 0 1 2 31 := by
  refine ⟨⟨0, 2, by decide⟩, ?_⟩
  rintro ⟨r, b, hr, hb, -, -, h⟩
  omega

/-- The first address past the bound, for each of the four instructions. -/
theorem witness_DataAccessPastMemoryHalts :
    ((5 : Fin 16).val > 0 ∧ (0xFFC#16).toNat + (5 : Fin 16).val - 1 > 0xFFF) ∧ (0xFFE#16).toNat + 2 > 0xFFF ∧
    (0xFF1#16).toNat + (15 : VReg).val > 0xFFF := by decide

/-- Key 5, named by 0x15. -/
theorem witness_SkipOnKey :
    (5 : Fin 16).val = ((State.reset.setV 2 0x15#8).V 2).toNat % 16 := by decide

/-- Key 7 is the least pressed; and no key is pressed. -/
theorem witness_WaitForKeyPolls :
    ((State.reset.setKey 9 true).setKey 7 true).keys[7] = true ∧
    (∀ j : Fin 16, j < 7 → ((State.reset.setKey 9 true).setKey 7 true).keys[j.val] = false) ∧
    (∀ j : Fin 16, State.reset.keys[j.val] = false) := by decide

/-- The last address that FX33, FX55 and FX65 may start at, with X = F. -/
theorem witness_DataAccessBounds :
    (0xFFD#16).toNat + 2 ≤ 0xFFF ∧ (0xFF0#16).toNat + (15 : VReg).val ≤ 0xFFF := by decide

/-- A running state whose word decodes and whose execution answers a running state. -/
theorem witness_StepRunsTheDecodedInstruction_next :
    ∃ t, (start 0x6A42#16).status = .running ∧ (start 0x6A42#16).pc.toNat + 1 < 4096 ∧
    decode (start 0x6A42#16).params.fullSet (start 0x6A42#16).fetchWord = .ok (.ldImm 10 0x42#8) ∧
    exec (.ldImm 10 0x42#8) (start 0x6A42#16) = .next t ∧ t.status = .running := ⟨_, by decide, by decide, by decide, rfl, rfl⟩

/-- A running state whose word decodes and whose execution halts. -/
theorem witness_StepRunsTheDecodedInstruction_halted :
    ∃ t, (start 0x00EE#16).status = .running ∧ (start 0x00EE#16).pc.toNat + 1 < 4096 ∧
    decode (start 0x00EE#16).params.fullSet (start 0x00EE#16).fetchWord = .ok .ret ∧
    exec .ret (start 0x00EE#16) = .next t ∧ t.status = .halted .stackUnderflow := ⟨_, by decide, by decide, by decide, rfl, rfl⟩

/-- The first step from reset. -/
theorem witness_UnknownWordIsReportedAndSkipped :
    State.reset.status = .running ∧ State.reset.pc.toNat + 1 < 4096 ∧
    decode State.reset.params.fullSet State.reset.fetchWord = .error (.unknownOpcode 0x0000#16) := by decide

/-- A halted state. -/
theorem witness_HaltedStepChangesNothing :
    ({ State.reset with status := .halted .stackOverflow }).status = .halted .stackOverflow := by decide

/-- The two sides of the fetch bound. -/
theorem witness_FetchPastMemoryHalts :
    ({ State.reset with pc := 0xFFF }).status = .running ∧ ({ State.reset with pc := 0xFFF }).pc.toNat + 1 ≥ 4096 ∧
    ({ State.reset with pc := 0xFFE }).pc.toNat + 1 < 4096 := by decide

/-- A running block whose step halts (FatalStepIsPrecise, FatalConditionsAreExactly, StepResultRecord). -/
theorem witness_FatalStep :
    ∃ t, (start 0x00EE#16).status = .running ∧ step (start 0x00EE#16) = .next t ∧
      t.status = .halted .stackUnderflow := ⟨_, by decide, rfl, by decide⟩

/-- Running blocks whose step runs on, with FX15, FX18 and another word (DelayTimerTicks,
SoundTimerTicksAndSounds). -/
theorem witness_TimerTicks :
    (start 0xF115#16).status = .running ∧
    after (start 0xF115#16) (fun t => t.status == .running) = true ∧
    after (start 0xF118#16) (fun t => t.status == .running) = true ∧
    after (start 0x6A42#16) (fun t => t.status == .running) = true ∧
    decode true (start 0xF115#16).fetchWord = .ok (.ldDtVx 1) ∧
    decode true (start 0xF118#16).fetchWord = .ok (.ldStVx 1) := by decide

/-- Two steps of the base configuration that still run, from DT = 5. -/
theorem witness_TimersReachZeroInThatManySteps :
    ∃ t, ({ State.reset with dt := 5 }).params.fullSet = false ∧
      Sys2Proof.core.run 2 { State.reset with dt := 5 } = .next t ∧ t.status = .running :=
  ⟨_, by decide, rfl, by decide⟩

/-- LOAD at the longest length it accepts and one byte more (H2, S14). -/
theorem witness_LoadLengths :
    (List.replicate 3584 0xAB#8).length ≤ 3584 ∧ (List.replicate 3585 0xAB#8).length > 3584 := by
  rw [List.length_replicate, List.length_replicate]
  omega

/-- SET_KEY at the last key and the first index past it. -/
theorem witness_SetKeyWritesOneKey : (15 : Fin 16).val = 15 ∧ 16 ≤ 16 := by decide

/-- A halted block, a transaction that is no RESET, and what it answers. -/
theorem witness_OnlyResetLeavesHalted :
    ∃ t a, ({ State.reset with status := .halted .stackOverflow }).status = .halted .stackOverflow ∧
      Transaction.load [1#8, 2#8] ≠ .reset ∧ (∀ r, Transaction.load [1#8, 2#8] ≠ .step r) ∧
      transact (.load [1#8, 2#8]) { State.reset with status := .halted .stackOverflow } = .next (t, a) :=
  ⟨_, _, rfl, by decide, by simp, rfl⟩

/-- State.reset meets every invariant, and a step and a transaction from it answer a next state
(StepKeepsMemoryCanonical, StepKeepsFreeSlotsZero, StepKeepsPcBounded, BaseConfigurationKeepsItsInvariant,
StepKeepsKeysAndParameters). -/
theorem witness_Invariants :
    State.reset.MemoryCanonical ∧ State.reset.FreeSlotsZero ∧ State.reset.PcBounded ∧
    State.reset.BaseReachable ∧ (∃ t, step State.reset = .next t) ∧
    (∃ t a, transact (.step 0#8) State.reset = .next (t, a)) ∧
    (∃ t, runTransactions [.step 0#8, .setKey 3 true, .reset] State.reset = .next t) :=
  ⟨Memory.wf_nil _, fun j _ => by revert j; decide, by unfold State.PcBounded; decide,
    ⟨rfl, by decide, rfl, rfl, fun _ _ => rfl⟩, ⟨_, rfl⟩, ⟨_, _, rfl⟩, ⟨_, rfl⟩⟩

/-- A port with no LOAD under way and the commands of a LOAD (the law Port.acceptAll_commands). -/
theorem witness_acceptAll_commands :
    (Transaction.load [0xAB#8]).commands = some [.loadBegin 1, .loadByte 0xAB#8] ∧
    transact (.load [0xAB#8]) State.reset = .next (State.reset.load [0xAB#8], .loaded) ∧
    LoadPhase.idle.isCopying = false := ⟨by decide, rfl, rfl⟩

/-- Steps that change the framebuffer, DRAW_PENDING, the stack, SP, I and VF (OnlyTheirWritersChangeState,
VfChangesOnlyByFlagOrDestination). -/
theorem witness_Writers :
    after ({ start 0x00E0#16 with fb := Framebuffer.toggle State.reset.fb 5 })
      (fun t => t.fb != Framebuffer.toggle State.reset.fb 5 && t.drawPending) = true ∧
    after (start 0x2300#16) (fun t => t.stack != State.reset.stack && t.sp != 0) = true ∧
    after (start 0xA300#16) (fun t => t.i != 0) = true ∧
    after ((start 0x8016#16).setV 0 0x05#8) (fun t => t.V 15 != 0) = true := by decide

end Sys2Proof.Tests
end

section
/-! PROOFS. The operand fields as arithmetic on the word (30_encoding.md R81), and the obligation of that
rule. -/

namespace Sys2Proof

/-! ## Each field as a quotient and remainder of the word -/

/-- A bit range of a word as a number. -/
theorem extractLsb'_toNat_eq_div_mod (w : Word) (start len : Nat) :
    (w.extractLsb' start len).toNat = w.toNat / 2 ^ start % 2 ^ len := by
  rw [BitVec.extractLsb'_toNat, Nat.shiftRight_eq_div_pow]

/-- The class is the topmost range, so no remainder is taken. -/
@[simp] theorem fieldClass_toNat (w : Word) : (fieldClass w).toNat = w.toNat / 4096 :=
  (extractLsb'_toNat_eq_div_mod w 12 4).trans (by have := w.isLt; omega)

@[simp] theorem fieldX_val (w : Word) : (fieldX w).val = w.toNat / 256 % 16 :=
  extractLsb'_toNat_eq_div_mod w 8 4

@[simp] theorem fieldY_val (w : Word) : (fieldY w).val = w.toNat / 16 % 16 :=
  extractLsb'_toNat_eq_div_mod w 4 4

@[simp] theorem fieldN_val (w : Word) : (fieldN w).val = w.toNat % 16 :=
  (extractLsb'_toNat_eq_div_mod w 0 4).trans (by omega)

@[simp] theorem fieldKK_toNat (w : Word) : (fieldKK w).toNat = w.toNat % 256 :=
  (extractLsb'_toNat_eq_div_mod w 0 8).trans (by omega)

@[simp] theorem fieldNNN_toNat (w : Word) : (fieldNNN w).toNat = w.toNat % 4096 :=
  (extractLsb'_toNat_eq_div_mod w 0 12).trans (by omega)

/-! ## The overlaps: OR with a shifted field is a sum, since the low part fits under the shift -/

theorem fieldKK_eq_fieldY_or_fieldN (w : Word) :
    (fieldKK w).toNat = (fieldY w).val <<< 4 ||| (fieldN w).val := by
  rw [← Nat.shiftLeft_add_eq_or_of_lt (fieldN w).isLt, Nat.shiftLeft_eq,
    fieldKK_toNat, fieldY_val, fieldN_val]
  omega

theorem fieldNNN_eq_fieldX_or_fieldKK (w : Word) :
    (fieldNNN w).toNat = (fieldX w).val <<< 8 ||| (fieldKK w).toNat := by
  rw [← Nat.shiftLeft_add_eq_or_of_lt (fieldKK w).isLt, Nat.shiftLeft_eq,
    fieldNNN_toNat, fieldX_val, fieldKK_toNat]
  omega

/-- Settles O1: each field is a quotient and remainder of the word, and a field that spans two others is
their sum with the upper one shifted. -/
theorem wordFieldsAreTheirBits : Obligations.WordFieldsAreTheirBits := fun w =>
  ⟨fieldClass_toNat w, fieldX_val w, fieldY_val w, fieldN_val w, fieldKK_toNat w, fieldNNN_toNat w,
    fieldKK_eq_fieldY_or_fieldN w, fieldNNN_eq_fieldX_or_fieldKK w⟩

end Sys2Proof
end

section
/-! PROOFS. Frames under a write of PC, and the jump 1NNN (41_flow.md R121). -/

namespace Sys2Proof

/-- Class 0x1 is JP NNN in both configurations (30_encoding.md R85). -/
theorem decode_of_class_jp {fs : Bool} {w : Word} (h : fieldClass w = 1#4) :
    decode fs w = .ok (.jp (fieldNNN w)) := by
  unfold decode
  rw [h]
  rfl

namespace Machine

/-- The zero extension keeps the operand's value (30_encoding.md R82). -/
@[simp] theorem addressOperand_toNat (nnn : Addr12) : (addressOperand nnn).toNat = nnn.toNat := by
  have := nnn.isLt
  simp only [addressOperand, trunc16, BitVec.toNat_ofNat]
  omega

/-! ## Frames -/

@[simp] theorem UnchangedBut.refl (changed : List Part) (s : State) : UnchangedBut changed s s := by
  intro p _
  cases p
  case mem => exact fun _ => rfl
  case randInput => exact ⟨rfl, rfl⟩
  all_goals rfl

/-- A write of PC is seen by the part PC only. -/
theorem Part.same_setPc {p : Part} (hp : p ≠ .pc) (s t : State) (a : Word) :
    p.Same s (t.setPc a) ↔ p.Same s t := by
  cases p
  case pc => contradiction
  all_goals exact Iff.rfl

/-- A frame that names PC stands a write of PC. -/
theorem UnchangedBut.setPc {changed : List Part} {s t : State} (h : UnchangedBut changed s t)
    (hpc : Part.pc ∈ changed) (a : Word) : UnchangedBut changed s (t.setPc a) := fun p hp =>
  (Part.same_setPc (ne_of_mem_of_not_mem hpc hp).symm s t a).mpr (h p hp)

/-! ## The jump -/

theorem exec_jp (nnn : Addr12) (s : State) :
    exec (.jp nnn) s = .next (s.setPc (addressOperand nnn)) := rfl

end Machine

open Machine

/-- Settles O9: the mask fixes the class, and the execution is one write of PC, which the frame names. -/
theorem jumpSetsThePc : Obligations.JumpSetsThePc :=
  ⟨fun _ _ h => decode_of_class_jp (fieldClass_of_mask h),
    fun nnn s => ⟨s.setPc (addressOperand nnn), exec_jp nnn s, addressOperand_toNat nnn,
      (UnchangedBut.refl [.pc] s).setPc (by simp) (addressOperand nnn)⟩⟩

end Sys2Proof
end

section
/-! PROOFS. The skip of one word, and the skips that compare Vx with a constant (42_skip.md R130, R131). -/

namespace Sys2Proof

/-- Class 0x3 is SE Vx, kk in both configurations (30_encoding.md R85). -/
theorem decode_of_class_seImm {fs : Bool} {w : Word} (h : fieldClass w = 3#4) :
    decode fs w = .ok (.seImm (fieldX w) (fieldKK w)) := by
  unfold decode
  rw [h]
  rfl

/-- Class 0x4 is SNE Vx, kk in both configurations (30_encoding.md R85). -/
theorem decode_of_class_sneImm {fs : Bool} {w : Word} (h : fieldClass w = 4#4) :
    decode fs w = .ok (.sneImm (fieldX w) (fieldKK w)) := by
  unfold decode
  rw [h]
  rfl

namespace Machine

/-! ## The skip -/

/-- Taken or not, a skip is one write of PC. -/
theorem UnchangedBut.skipIf {changed : List Part} {s t : State} (h : UnchangedBut changed s t)
    (hpc : Part.pc ∈ changed) (taken : Bool) : UnchangedBut changed s (t.skipIf taken) :=
  h.setPc hpc _

/-- An execution that is a skip moves PC by 4 under the skip's condition and by 2 otherwise, and changes
nothing else (42_skip.md R134). -/
theorem exec_skip_spec {i : Instr} {s : State} {taken : Bool} {P : Prop} [Decidable P]
    (hexec : exec i s = .next (s.skipIf taken)) (htaken : taken = true ↔ P) :
    ∃ t, exec i s = .next t ∧ t.pc = s.pc + (if P then 4 else 2) ∧ UnchangedBut [.pc] s t :=
  ⟨s.skipIf taken, hexec, by simp [htaken], (UnchangedBut.refl [.pc] s).skipIf (by simp) taken⟩

/-- The ALU's compare is equality of bytes (44_alu.md R156). -/
theorem eq8_eq_true_iff (a b : Byte) : eq8 a b = true ↔ a = b := decide_eq_true_iff

theorem not_eq8_eq_true_iff (a b : Byte) : (!eq8 a b) = true ↔ a ≠ b := by
  rw [Bool.not_eq_true', ← Bool.not_eq_true, eq8_eq_true_iff]

theorem exec_seImm (x : VReg) (kk : Byte) (s : State) :
    exec (.seImm x kk) s = .next (s.skipIf (eq8 (s.V x) kk)) := rfl

theorem exec_sneImm (x : VReg) (kk : Byte) (s : State) :
    exec (.sneImm x kk) s = .next (s.skipIf (!eq8 (s.V x) kk)) := rfl

end Machine

open Machine

/-- Settles O13: the masks fix the classes, and each execution is a skip whose condition is the ALU's
8-bit equality or its negation. -/
theorem skipOnImmediate : Obligations.SkipOnImmediate :=
  ⟨fun _ _ h => decode_of_class_seImm (fieldClass_of_mask h),
    fun _ _ h => decode_of_class_sneImm (fieldClass_of_mask h),
    fun x kk s => ⟨exec_skip_spec (exec_seImm x kk s) (eq8_eq_true_iff (s.V x) kk),
      exec_skip_spec (exec_sneImm x kk s) (not_eq8_eq_true_iff (s.V x) kk)⟩⟩

end Sys2Proof
end

section
/-! PROOFS. Frames under a write of a V register or of I, and the immediate loads 6XKK, 7XKK and ANNN
(43_load_imm.md R140-R142). -/

namespace Sys2Proof

/-- Class 0x6 is LD Vx, kk in both configurations (30_encoding.md R85). -/
theorem decode_of_class_ldImm {fs : Bool} {w : Word} (h : fieldClass w = 6#4) :
    decode fs w = .ok (.ldImm (fieldX w) (fieldKK w)) := by
  unfold decode
  rw [h]
  rfl

/-- Class 0x7 is ADD Vx, kk in both configurations (30_encoding.md R85). -/
theorem decode_of_class_addImm {fs : Bool} {w : Word} (h : fieldClass w = 7#4) :
    decode fs w = .ok (.addImm (fieldX w) (fieldKK w)) := by
  unfold decode
  rw [h]
  rfl

/-- Class 0xA is LD I, nnn in both configurations (30_encoding.md R85). -/
theorem decode_of_class_ldI {fs : Bool} {w : Word} (h : fieldClass w = 0xA#4) :
    decode fs w = .ok (.ldI (fieldNNN w)) := by
  unfold decode
  rw [h]
  rfl

namespace Machine

/-! ## Frames -/

/-- A write of a V register is seen by the part V only. -/
theorem Part.same_setV {p : Part} (hp : p ≠ .v) (s t : State) (x : VReg) (b : Byte) :
    p.Same s (t.setV x b) ↔ p.Same s t := by
  cases p
  case v => contradiction
  all_goals exact Iff.rfl

/-- A write of I is seen by the part I only. -/
theorem Part.same_setI {p : Part} (hp : p ≠ .i) (s t : State) (a : Word) :
    p.Same s (t.setI a) ↔ p.Same s t := by
  cases p
  case i => contradiction
  all_goals exact Iff.rfl

/-- A frame that names the V registers stands a write of one. -/
theorem UnchangedBut.setV {changed : List Part} {s t : State} (h : UnchangedBut changed s t)
    (hv : Part.v ∈ changed) (x : VReg) (b : Byte) : UnchangedBut changed s (t.setV x b) := fun p hp =>
  (Part.same_setV (ne_of_mem_of_not_mem hv hp).symm s t x b).mpr (h p hp)

/-- A frame that names I stands a write of I. -/
theorem UnchangedBut.setI {changed : List Part} {s t : State} (h : UnchangedBut changed s t)
    (hi : Part.i ∈ changed) (a : Word) : UnchangedBut changed s (t.setI a) := fun p hp =>
  (Part.same_setI (ne_of_mem_of_not_mem hi hp).symm s t a).mpr (h p hp)

/-- The default advance is a write of PC. -/
theorem UnchangedBut.advance {changed : List Part} {s t : State} (h : UnchangedBut changed s t)
    (hpc : Part.pc ∈ changed) : UnchangedBut changed s t.advance :=
  h.setPc hpc _

/-- A write of Vx leaves every other register. -/
theorem RegsUnchangedBut.setV (s : State) (x : VReg) (b : Byte) : RegsUnchangedBut [x] s (s.setV x b) :=
  fun j hj => by rw [State.setV_V, if_neg (List.ne_of_not_mem_cons hj)]

/-- The default advance writes no register. -/
theorem RegsUnchangedBut.advance {changed : List VReg} {s t : State} (h : RegsUnchangedBut changed s t) :
    RegsUnchangedBut changed s t.advance := h

/-! ## One register written -/

/-- An execution that writes one V register and advances: Vx holds the value, PC rises by 2, and nothing
else changes. -/
theorem exec_setV_spec {i : Instr} {s : State} {x : VReg} {b : Byte}
    (hexec : exec i s = .next (s.setV x b).advance) :
    ∃ t, exec i s = .next t ∧ t.V x = b ∧ RegsUnchangedBut [x] s t ∧ t.pc = s.pc + 2 ∧
      UnchangedBut [.v, .pc] s t :=
  ⟨(s.setV x b).advance, hexec, by simp, (RegsUnchangedBut.setV s x b).advance, by simp,
    ((UnchangedBut.refl [.v, .pc] s).setV (by simp) x b).advance (by simp)⟩

/-- The ALU's sum is taken modulo 256 (44_alu.md R150). -/
@[simp] theorem add8_toNat (a b : Byte) : (add8 a b).toNat = (a.toNat + b.toNat) % 256 :=
  BitVec.toNat_ofNat _ 8

theorem exec_ldImm (x : VReg) (kk : Byte) (s : State) :
    exec (.ldImm x kk) s = .next (s.setV x kk).advance := rfl

theorem exec_addImm (x : VReg) (kk : Byte) (s : State) :
    exec (.addImm x kk) s = .next (s.setV x (add8 (s.V x) kk)).advance := rfl

/-! ## The index register -/

/-- An address operand stays in memory: it has 12 bits (30_encoding.md R82). -/
theorem addressOperand_le (nnn : Addr12) : (addressOperand nnn).toNat ≤ 0xFFF := by
  rw [addressOperand_toNat]
  exact Nat.le_of_lt_succ nnn.isLt

/-- An execution that writes I and advances: I holds the value, PC rises by 2, and nothing else changes. -/
theorem exec_setI_spec {i : Instr} {s : State} {a : Word}
    (hexec : exec i s = .next (s.setI a).advance) :
    ∃ t, exec i s = .next t ∧ t.i = a ∧ t.pc = s.pc + 2 ∧ UnchangedBut [.i, .pc] s t :=
  ⟨(s.setI a).advance, hexec, by simp, by simp,
    ((UnchangedBut.refl [.i, .pc] s).setI (by simp) a).advance (by simp)⟩

theorem exec_ldI (nnn : Addr12) (s : State) :
    exec (.ldI nnn) s = .next (s.setI (addressOperand nnn)).advance := rfl

end Machine

open Machine

/-- Settles O15: the mask fixes the class, and the execution is one write of Vx and the default advance. -/
theorem loadImmediateSetsVx : Obligations.LoadImmediateSetsVx :=
  ⟨fun _ _ h => decode_of_class_ldImm (fieldClass_of_mask h),
    fun x kk s => exec_setV_spec (exec_ldImm x kk s)⟩

/-- Settles O16: the execution writes the ALU's 8-bit sum to Vx and drops the carry. -/
theorem addImmediateWrapsWithoutFlag : Obligations.AddImmediateWrapsWithoutFlag := by
  refine ⟨fun _ _ h => decode_of_class_addImm (fieldClass_of_mask h), fun x kk s => ?_⟩
  obtain ⟨t, hexec, hvx, hframe⟩ := exec_setV_spec (exec_addImm x kk s)
  exact ⟨t, hexec, hvx ▸ add8_toNat (s.V x) kk, hframe⟩

/-- Settles O17: the execution writes the zero-extended operand to I, and that operand has 12 bits. -/
theorem loadIndexSetsI : Obligations.LoadIndexSetsI := by
  refine ⟨fun _ _ h => decode_of_class_ldI (fieldClass_of_mask h), fun nnn s => ?_⟩
  obtain ⟨t, hexec, hi, hframe⟩ := exec_setI_spec (exec_ldI nnn s)
  exact ⟨t, hexec, hi ▸ addressOperand_toNat nnn, hi ▸ addressOperand_le nnn, hframe⟩

end Sys2Proof
end

section
/-! PROOFS. The decoding of class 0x8 by N, and the instructions 8XY0 to 8XY3, which write Vx and no flag
(44_alu.md R158-R161). -/

namespace Sys2Proof

/-! ## The decoding of class 0x8 -/

/-- Class 0x8 is decoded by its own table in both configurations (30_encoding.md R84). -/
theorem decode_of_class8 {fs : Bool} {w : Word} (h : fieldClass w = 8#4) :
    decode fs w = decodeClass8 w := by
  unfold decode
  rw [h]
  rfl

/-- A row whose mask is 0xF00F and whose class is 0x8 goes to that table. -/
theorem decode_of_maskN_class8 {fs : Bool} {w c : Word} (h : w &&& 0xF00F#16 = c)
    (hc : c.extractLsb' 12 4 = 8#4) : decode fs w = decodeClass8 w :=
  decode_of_class8 ((fields_of_maskN h).1.trans hc)

/-- A row whose mask is 0xF00F fixes the operand N. -/
theorem fieldN_of_maskN {w c : Word} (h : w &&& 0xF00F#16 = c) :
    fieldN w = (c.extractLsb' 0 4).toFin :=
  congrArg BitVec.toFin (fields_of_maskN h).2

theorem decodeClass8_of_fieldN_zero {w : Word} (h : fieldN w = 0) :
    decodeClass8 w = .ok (.ldReg (fieldX w) (fieldY w)) := by
  unfold decodeClass8
  rw [h]
  rfl

theorem decodeClass8_of_fieldN_one {w : Word} (h : fieldN w = 1) :
    decodeClass8 w = .ok (.orReg (fieldX w) (fieldY w)) := by
  unfold decodeClass8
  rw [h]
  rfl

theorem decodeClass8_of_fieldN_two {w : Word} (h : fieldN w = 2) :
    decodeClass8 w = .ok (.andReg (fieldX w) (fieldY w)) := by
  unfold decodeClass8
  rw [h]
  rfl

theorem decodeClass8_of_fieldN_three {w : Word} (h : fieldN w = 3) :
    decodeClass8 w = .ok (.xorReg (fieldX w) (fieldY w)) := by
  unfold decodeClass8
  rw [h]
  rfl

namespace Machine

/-! ## The executions: one write of Vx, with the ALU's bytewise operation written out (R153) -/

theorem exec_ldReg (x y : VReg) (s : State) :
    exec (.ldReg x y) s = .next (s.setV x (s.V y)).advance := rfl

theorem exec_orReg (x y : VReg) (s : State) :
    exec (.orReg x y) s = .next (s.setV x (s.V x ||| s.V y)).advance := rfl

theorem exec_andReg (x y : VReg) (s : State) :
    exec (.andReg x y) s = .next (s.setV x (s.V x &&& s.V y)).advance := rfl

theorem exec_xorReg (x y : VReg) (s : State) :
    exec (.xorReg x y) s = .next (s.setV x (s.V x ^^^ s.V y)).advance := rfl

end Machine

open Machine

/-- Settles O19: the mask fixes the class and N, and each execution is one write of Vx and the default
advance, so VF changes only as the destination. -/
theorem copyAndBitwiseOperations : Obligations.CopyAndBitwiseOperations :=
  ⟨fun _ _ h => (decode_of_maskN_class8 h rfl).trans (decodeClass8_of_fieldN_zero (fieldN_of_maskN h)),
    fun _ _ h => (decode_of_maskN_class8 h rfl).trans (decodeClass8_of_fieldN_one (fieldN_of_maskN h)),
    fun _ _ h => (decode_of_maskN_class8 h rfl).trans (decodeClass8_of_fieldN_two (fieldN_of_maskN h)),
    fun _ _ h => (decode_of_maskN_class8 h rfl).trans (decodeClass8_of_fieldN_three (fieldN_of_maskN h)),
    fun x y s => ⟨exec_setV_spec (exec_ldReg x y s), exec_setV_spec (exec_orReg x y s),
      exec_setV_spec (exec_andReg x y s), exec_setV_spec (exec_xorReg x y s)⟩⟩

end Sys2Proof
end

section
/-! PROOFS. Frames under a write of the flag or of DRAW_PENDING, and DXYN with N = 0 (45_display.md R185). -/

namespace Sys2Proof

namespace Machine

/-! ## Frames -/

/-- A frame that names the V registers stands a write of VF. -/
theorem UnchangedBut.setFlag {changed : List Part} {s t : State} (h : UnchangedBut changed s t)
    (hv : Part.v ∈ changed) (f : Bool) : UnchangedBut changed s (t.setFlag f) :=
  h.setV hv vf (flagByte f)

/-- A write of VF leaves every other register. -/
theorem RegsUnchangedBut.setFlag (s : State) (f : Bool) : RegsUnchangedBut [15] s (s.setFlag f) :=
  RegsUnchangedBut.setV s vf (flagByte f)

/-- Presenting the framebuffer the state already holds is seen by the part DRAW_PENDING only. -/
theorem Part.same_present_fb {p : Part} (hp : p ≠ .drawPending) (s t : State) :
    p.Same s (t.present t.fb) ↔ p.Same s t := by
  cases p
  case drawPending => contradiction
  all_goals exact Iff.rfl

/-- A frame that names DRAW_PENDING stands presenting the framebuffer the state already holds. -/
theorem UnchangedBut.present_fb {changed : List Part} {s t : State} (h : UnchangedBut changed s t)
    (hd : Part.drawPending ∈ changed) : UnchangedBut changed s (t.present t.fb) := fun p hp =>
  (Part.same_present_fb (ne_of_mem_of_not_mem hd hp).symm s t).mpr (h p hp)

/-! ## The draw -/

/-- A sprite of no rows toggles nothing and hits nothing. -/
theorem State.blit_zero (s : State) (x0 y0 : Nat) : s.blit x0 y0 0 = (s.fb, false) := rfl

/-- A draw that passes the bound check presents the blitted framebuffer, writes the collision to VF and
advances (R181, R186). -/
theorem exec_drw_of_inBounds (x y : VReg) {n : Fin 16} {s : State}
    (h : ¬(n.val > 0 ∧ s.dataOutOfBounds (n.val - 1))) :
    exec (.drw x y n) s =
      .next ((s.present (s.blit ((s.V x).toNat % 64) ((s.V y).toNat % 32) n.val).1).setFlag
        (s.blit ((s.V x).toNat % 64) ((s.V y).toNat % 32) n.val).2).advance :=
  if_neg h

/-- A draw of no rows passes the bound check whatever I holds. -/
theorem exec_drw_zero (x y : VReg) (s : State) :
    exec (.drw x y 0) s = .next ((s.present s.fb).setFlag false).advance := by
  have hbound : ¬((0 : Fin 16).val > 0 ∧ s.dataOutOfBounds ((0 : Fin 16).val - 1)) :=
    fun ⟨hpos, _⟩ => Nat.lt_irrefl 0 hpos
  rw [exec_drw_of_inBounds x y hbound, Fin.val_zero, State.blit_zero]

end Machine

open Machine

/-- Settles O27: the execution presents the framebuffer as it was, writes 0 to VF and advances. -/
theorem drawOfNoRowsIsLegal : Obligations.DrawOfNoRowsIsLegal := by
  intro x y s
  have hregs : RegsUnchangedBut [15] s ((s.present s.fb).setFlag false) :=
    RegsUnchangedBut.setFlag (s.present s.fb) false
  have hframe : UnchangedBut [.v, .drawPending, .pc] s ((s.present s.fb).setFlag false) :=
    ((UnchangedBut.refl _ s).present_fb (by simp)).setFlag (by simp) false
  exact ⟨((s.present s.fb).setFlag false).advance, exec_drw_zero x y s, by simp [flagByte], by simp,
    by simp, hregs.advance, by simp, hframe.advance (by simp)⟩

end Sys2Proof
end

section
/-! PROOFS. SET_KEY (60_exceptions.md R250): the key it writes, its frame, and the index it ignores. -/

namespace Sys2Proof

namespace Machine

/-! ## The write of one key -/

theorem transact_setKey (index : Nat) (pressed : Bool) (s : State) :
    transact (.setKey index pressed) s = .next (s.setKey index pressed, .done) := rfl

theorem State.setKey_of_lt (s : State) {index : Nat} (h : index < 16) (pressed : Bool) :
    s.setKey index pressed = { s with keys := s.keys.set index pressed } := dif_pos h

/-- An index outside 0 to 15 is ignored (R238). -/
theorem State.setKey_of_ge (s : State) {index : Nat} (h : 16 ≤ index) (pressed : Bool) :
    s.setKey index pressed = s := dif_neg (Nat.not_lt.mpr h)

theorem State.setKey_key_same (s : State) (k : Fin 16) (pressed : Bool) :
    (s.setKey k.val pressed).keys[k.val] = pressed := by
  simp [State.setKey_of_lt s k.isLt]

theorem State.setKey_key_ne (s : State) {j k : Fin 16} (h : j ≠ k) (pressed : Bool) :
    (s.setKey k.val pressed).keys[j.val] = s.keys[j.val] := by
  have hval : k.val ≠ j.val := Fin.val_ne_of_ne h.symm
  simp [State.setKey_of_lt s k.isLt, hval]

/-! ## Its frame -/

/-- A write of the keys is seen by the part KEYS only. -/
theorem Part.same_setKey {p : Part} (hp : p ≠ .keys) (s t : State) (index : Nat) (pressed : Bool) :
    p.Same s (t.setKey index pressed) ↔ p.Same s t := by
  rcases Nat.lt_or_ge index 16 with hlt | hge
  · rw [State.setKey_of_lt t hlt]
    cases p
    case keys => contradiction
    all_goals exact Iff.rfl
  · rw [State.setKey_of_ge t hge]

/-- A frame that names KEYS stands SET_KEY at any index. -/
theorem UnchangedBut.setKey {changed : List Part} {s t : State} (h : UnchangedBut changed s t)
    (hk : Part.keys ∈ changed) (index : Nat) (pressed : Bool) :
    UnchangedBut changed s (t.setKey index pressed) := fun p hp =>
  (Part.same_setKey (ne_of_mem_of_not_mem hk hp).symm s t index pressed).mpr (h p hp)

end Machine

open Machine

/-- Settles O50: an index that is a key writes that key, within the frame of KEYS; any other index leaves
the state itself. -/
theorem setKeyWritesOneKey : Obligations.SetKeyWritesOneKey := by
  intro index pressed s
  constructor
  · rintro k rfl
    exact ⟨s.setKey k.val pressed, transact_setKey k.val pressed s, s.setKey_key_same k pressed,
      fun j hj => s.setKey_key_ne hj pressed,
      (UnchangedBut.refl [.keys] s).setKey (by simp) k.val pressed⟩
  · intro hge
    rw [transact_setKey, s.setKey_of_ge hge]

end Sys2Proof
end

section
/-! PROOFS. LOAD of a program longer than memory holds from 0x200 on (70_reset_and_hazards.md R274, R275). -/

namespace Sys2Proof

namespace Machine

theorem transact_load (bytes : List Byte) (s : State) :
    transact (.load bytes) s =
      .next (s.load bytes, if programTooLong bytes then .programTooLarge else .loaded) := rfl

/-- The bound of R274: memory ends 3584 bytes after 0x200. -/
theorem programTooLong_iff (bytes : List Byte) : programTooLong bytes = true ↔ 3584 < bytes.length :=
  decide_eq_true_iff

/-- A refused LOAD writes nothing. -/
theorem State.load_of_tooLong (s : State) {bytes : List Byte} (h : programTooLong bytes = true) :
    s.load bytes = s := if_pos h

end Machine

open Machine

/-- Settles O49: a length above the bound of R274 is refused, and a refused LOAD leaves the state itself. -/
theorem loadTooLongChangesNothing : Obligations.LoadTooLongChangesNothing := by
  intro bytes s hlen
  have hlong : programTooLong bytes = true := (programTooLong_iff bytes).mpr hlen
  rw [transact_load, s.load_of_tooLong hlong, if_pos hlong]

end Sys2Proof
end

section
/-! PROOFS. The encoder's words and the decoder against each other and against the opcode map
(30_encoding.md R81-R90): the round trips, the rows and the words that are no instruction. -/

namespace Sys2Proof

/-! ## The fields of an encoded word -/

@[simp] theorem fieldClass_wordXKK (c : BitVec 4) (x : VReg) (kk : Byte) :
    fieldClass (wordXKK c x kk) = c :=
  BitVec.eq_of_toNat_eq ((fieldClass_toNat _).trans Laws.ClassNibble.ofXKK)

@[simp] theorem fieldX_wordXKK (c : BitVec 4) (x : VReg) (kk : Byte) :
    fieldX (wordXKK c x kk) = x := by
  have := x.isLt
  have := kk.isLt
  apply Fin.ext
  rw [fieldX_val, Laws.wordXKK_toNat]
  omega

@[simp] theorem fieldKK_wordXKK (c : BitVec 4) (x : VReg) (kk : Byte) :
    fieldKK (wordXKK c x kk) = kk := by
  have := x.isLt
  have := kk.isLt
  apply BitVec.eq_of_toNat_eq
  rw [fieldKK_toNat, Laws.wordXKK_toNat]
  omega

@[simp] theorem fieldClass_wordXYN (c : BitVec 4) (x y : VReg) (n : BitVec 4) :
    fieldClass (wordXYN c x y n) = c :=
  BitVec.eq_of_toNat_eq ((fieldClass_toNat _).trans Laws.ClassNibble.ofXYN)

@[simp] theorem fieldX_wordXYN (c : BitVec 4) (x y : VReg) (n : BitVec 4) :
    fieldX (wordXYN c x y n) = x := by
  have := x.isLt
  have := y.isLt
  have := n.isLt
  apply Fin.ext
  rw [fieldX_val, Laws.wordXYN_toNat]
  omega

@[simp] theorem fieldY_wordXYN (c : BitVec 4) (x y : VReg) (n : BitVec 4) :
    fieldY (wordXYN c x y n) = y := by
  have := x.isLt
  have := y.isLt
  have := n.isLt
  apply Fin.ext
  rw [fieldY_val, Laws.wordXYN_toNat]
  omega

@[simp] theorem fieldN_wordXYN (c : BitVec 4) (x y : VReg) (n : BitVec 4) :
    fieldN (wordXYN c x y n) = n.toFin := by
  have := x.isLt
  have := y.isLt
  have := n.isLt
  apply Fin.ext
  rw [fieldN_val, Laws.wordXYN_toNat]
  show _ = n.toNat
  omega

@[simp] theorem fieldClass_wordNNN (c : BitVec 4) (nnn : Addr12) :
    fieldClass (wordNNN c nnn) = c :=
  BitVec.eq_of_toNat_eq ((fieldClass_toNat _).trans Laws.ClassNibble.ofNNN)

@[simp] theorem fieldNNN_wordNNN (c : BitVec 4) (nnn : Addr12) :
    fieldNNN (wordNNN c nnn) = nnn := by
  have := nnn.isLt
  apply BitVec.eq_of_toNat_eq
  rw [fieldNNN_toNat, Laws.wordNNN_toNat]
  omega

/-! ## Decode after encode -/

/-- An instruction of the base set is decoded from its own word in both configurations. -/
theorem decode_encode_of_base (fs : Bool) {i : Instr} (h : i.isFullSet = false) :
    decode fs (encode i) = .ok i := by
  cases i
  case cls | ret => rfl
  case skp | sknp | ldVxDt | ldVxK | ldDtVx | ldStVx | addIVx | ldFVx => cases h
  case ldBVx | storeRegs | loadRegs => cases h
  all_goals simp [encode, decode, decodeClass8]

/-- An instruction of `FULL_SET` has a word of class 0xE or 0xF, which only `FULL_SET` decodes. -/
theorem decode_encode_of_fullSet (fs : Bool) {i : Instr} (h : i.isFullSet = true) :
    decode fs (encode i) = if fs then .ok i else .error (.unknownOpcode (encode i)) := by
  cases i
  case skp | sknp => cases fs <;> simp [encode, decode, decodeClassE]
  case ldVxDt | ldVxK | ldDtVx | ldStVx | addIVx | ldFVx | ldBVx | storeRegs | loadRegs =>
    cases fs <;> simp [encode, decode, decodeClassF]
  all_goals cases h

theorem wellFormed_eq_false_iff {fs : Bool} {i : Instr} :
    wellFormed fs i = false ↔ fs = false ∧ i.isFullSet = true := by simp [wellFormed]

theorem wellFormed_eq_true_iff {fs : Bool} {i : Instr} :
    wellFormed fs i = true ↔ fs = true ∨ i.isFullSet = false := by simp [wellFormed]

/-- Settles O3: the word's fields are the operands it was made of, and the table of the word's class
is the same in both configurations but for classes 0xE and 0xF. -/
theorem decodeEncodeRoundTrip : Obligations.DecodeEncodeRoundTrip := by
  intro fs i
  constructor
  · intro hwf
    cases hset : i.isFullSet with
    | false => exact decode_encode_of_base fs hset
    | true =>
      have hfs : fs = true := (wellFormed_eq_true_iff.mp hwf).resolve_right (by simp [hset])
      rw [decode_encode_of_fullSet fs hset, if_pos hfs]
  · intro hwf
    obtain ⟨hfs, hset⟩ := wellFormed_eq_false_iff.mp hwf
    rw [decode_encode_of_fullSet fs hset, if_neg (by simp [hfs])]

/-! ## Encode after decode -/

/-- A word is made of its class, X and KK. -/
theorem wordXKK_fields {w : Word} {c : BitVec 4} {kk : Byte} (hc : w.toNat / 4096 = c.toNat)
    (hkk : w.toNat % 256 = kk.toNat) : wordXKK c (fieldX w) kk = w := by
  apply BitVec.eq_of_toNat_eq
  rw [Laws.wordXKK_toNat, fieldX_val]
  omega

/-- A word is made of its class, X, Y and N. -/
theorem wordXYN_fields {w : Word} {c n : BitVec 4} (hc : w.toNat / 4096 = c.toNat)
    (hn : w.toNat % 16 = n.toNat) : wordXYN c (fieldX w) (fieldY w) n = w := by
  apply BitVec.eq_of_toNat_eq
  rw [Laws.wordXYN_toNat, fieldX_val, fieldY_val]
  omega

/-- A word is made of its class and NNN. -/
theorem wordNNN_fields {w : Word} {c : BitVec 4} (hc : w.toNat / 4096 = c.toNat) :
    wordNNN c (fieldNNN w) = w := by
  apply BitVec.eq_of_toNat_eq
  rw [Laws.wordNNN_toNat, fieldNNN_toNat]
  omega

/-- The mask 0xFFF0 clears the low nibble. -/
theorem and_FFF0_toNat (w : Word) : (w &&& 0xFFF0#16).toNat = w.toNat / 16 * 16 := by
  have hmask : w &&& 0xFFF0#16 = w >>> 4 <<< 4 := by
    ext i hi
    interval_cases i <;> simp
  have := w.isLt
  rw [hmask, BitVec.toNat_shiftLeft, BitVec.toNat_ushiftRight, Nat.shiftLeft_eq,
    Nat.shiftRight_eq_div_pow]
  omega

/-- The same with the low nibble cleared. -/
theorem wordXYN_fields_masked {w : Word} {c : BitVec 4} (hc : w.toNat / 4096 = c.toNat) :
    wordXYN c (fieldX w) (fieldY w) 0#4 = w &&& 0xFFF0#16 := by
  apply BitVec.eq_of_toNat_eq
  rw [Laws.wordXYN_toNat, fieldX_val, fieldY_val, and_FFF0_toNat, BitVec.toNat_zero]
  omega

/-- The instructions whose row leaves the low nibble of the word open (R88). -/
def Instr.ignoresN : Instr → Bool
  | .seReg _ _ | .sneReg _ _ => true
  | _ => false

/-- The table of class 0x0 answers instructions at their own words. -/
theorem encode_of_decodeClass0 {w : Word} {i : Instr} (h : decodeClass0 w = .ok i) :
    encode i = w ∧ i.ignoresN = false := by
  unfold decodeClass0 at h
  split at h
  · next hw => cases h; exact ⟨hw.symm, rfl⟩
  · split at h
    · next hw => cases h; exact ⟨hw.symm, rfl⟩
    · cases h

/-- The table of class 0x8 answers instructions at their own words. -/
theorem encode_of_decodeClass8 {w : Word} {i : Instr} (hc : w.toNat / 4096 = 8)
    (h : decodeClass8 w = .ok i) : encode i = w ∧ i.ignoresN = false := by
  unfold decodeClass8 at h
  dsimp only at h
  split at h
  case h_10 => cases h
  all_goals next hn => cases h; exact ⟨wordXYN_fields hc ((fieldN_val w).symm.trans hn), rfl⟩

/-- The table of class 0xE answers instructions at their own words. -/
theorem encode_of_decodeClassE {fs : Bool} {w : Word} {i : Instr} (hc : w.toNat / 4096 = 0xE)
    (h : decodeClassE fs w = .ok i) : encode i = w ∧ i.ignoresN = false := by
  unfold decodeClassE at h
  dsimp only at h
  split at h
  · cases h
  · split at h
    case h_3 => cases h
    all_goals next hkk => cases h; exact ⟨wordXKK_fields hc ((fieldKK_toNat w).symm.trans hkk), rfl⟩

/-- The table of class 0xF answers instructions at their own words. -/
theorem encode_of_decodeClassF {fs : Bool} {w : Word} {i : Instr} (hc : w.toNat / 4096 = 0xF)
    (h : decodeClassF fs w = .ok i) : encode i = w ∧ i.ignoresN = false := by
  unfold decodeClassF at h
  dsimp only at h
  split at h
  · cases h
  · split at h
    case h_10 => cases h
    all_goals next hkk => cases h; exact ⟨wordXKK_fields hc ((fieldKK_toNat w).symm.trans hkk), rfl⟩

/-- The word that is decoded is the encoding of the instruction, but for an ignored low nibble. -/
theorem encode_of_decode {fs : Bool} {w : Word} {i : Instr} (h : decode fs w = .ok i) :
    encode i = if i.ignoresN then w &&& 0xFFF0#16 else w := by
  have hlt := w.isLt
  unfold decode at h
  split at h <;> simp only [fieldClass_toNat, imp_false] at *
  case h_1 => simp [encode_of_decodeClass0 h]
  case h_9 hc => simp [encode_of_decodeClass8 hc h]
  case h_15 hc => simp [encode_of_decodeClassE hc h]
  case h_16 =>
    have hc : w.toNat / 4096 = 0xF := by omega
    simp [encode_of_decodeClassF hc h]
  all_goals cases h
  case h_6 hc | h_10 hc => exact wordXYN_fields_masked hc
  case h_14 hc => exact wordXYN_fields hc (fieldN_val w).symm
  case h_2 hc | h_3 hc | h_11 hc | h_12 hc => exact wordNNN_fields hc
  all_goals next hc => exact wordXKK_fields hc (fieldKK_toNat w).symm

/-- The base configuration decodes no `FULL_SET` instruction, so what is decoded is well-formed. -/
theorem wellFormed_of_decode {fs : Bool} {w : Word} {i : Instr} (h : decode fs w = .ok i) :
    wellFormed fs i = true := by
  cases fs with
  | false => exact wellFormed_eq_true_iff.mpr (.inr (isFullSet_of_decode_base h))
  | true => exact wellFormed_eq_true_iff.mpr (.inl rfl)

/-! ## The masks of the opcode map, as conditions on the fields -/

/-- The mask 0xF000 keeps the class. -/
theorem and_F000_toNat (w : Word) : (w &&& 0xF000#16).toNat = (fieldClass w).toNat * 4096 := by
  have hmask : w &&& 0xF000#16 = w >>> 12 <<< 12 := by
    ext i hi
    interval_cases i <;> simp
  have := w.isLt
  rw [hmask, BitVec.toNat_shiftLeft, BitVec.toNat_ushiftRight, Nat.shiftLeft_eq,
    Nat.shiftRight_eq_div_pow, fieldClass_toNat]
  omega

/-- A mask of the class and the lowest `k` bits keeps those two ranges. -/
theorem and_classMask_toNat (w : Word) {k : Nat} (hk : k ≤ 12) :
    (w &&& (0xF000#16 ||| BitVec.ofNat 16 (2 ^ k - 1))).toNat =
      (fieldClass w).toNat * 4096 + w.toNat % 2 ^ k := by
  have hpow : 2 ^ k ≤ 2 ^ 12 := Nat.pow_le_pow_right (by decide) hk
  have hlow : w.toNat % 2 ^ k < 2 ^ 12 := (Nat.mod_lt _ (by positivity)).trans_le hpow
  have hmask : (2 ^ k - 1) % 2 ^ 16 = 2 ^ k - 1 := by omega
  rw [BitVec.and_or_distrib_left, BitVec.toNat_or, and_F000_toNat, BitVec.toNat_and,
    BitVec.toNat_ofNat, hmask, Nat.and_two_pow_sub_one_eq_mod, ← Nat.shiftLeft_eq _ 12,
    ← Nat.shiftLeft_add_eq_or_of_lt hlow]

theorem and_F000_eq_iff (w c : Word) :
    w &&& 0xF000#16 = c ↔ (fieldClass w).toNat * 4096 = c.toNat := by
  rw [← BitVec.toNat_inj, and_F000_toNat]

theorem and_F00F_eq_iff (w c : Word) :
    w &&& 0xF00F#16 = c ↔ (fieldClass w).toNat * 4096 + (fieldN w).val = c.toNat := by
  rw [← BitVec.toNat_inj, fieldN_val]
  exact Eq.congr_left (and_classMask_toNat w (k := 4) (by decide))

theorem and_F0FF_eq_iff (w c : Word) :
    w &&& 0xF0FF#16 = c ↔ (fieldClass w).toNat * 4096 + (fieldKK w).toNat = c.toNat := by
  rw [← BitVec.toNat_inj, fieldKK_toNat]
  exact Eq.congr_left (and_classMask_toNat w (k := 8) (by decide))

/-- Clearing the low nibble is not seen by the mask of the class. -/
theorem and_FFF0_and_F000 (w : Word) : w &&& 0xFFF0#16 &&& 0xF000#16 = w &&& 0xF000#16 :=
  BitVec.and_assoc w 0xFFF0#16 0xF000#16

/-- The low nibble is open exactly in the rows of classes 0x5 and 0x9. -/
theorem ignoresN_iff_class (i : Instr) : i.ignoresN = true ↔
    encode i &&& 0xF000#16 = 0x5000#16 ∨ encode i &&& 0xF000#16 = 0x9000#16 := by
  cases i
  case cls | ret => decide
  all_goals simp [encode, and_F000_eq_iff, Instr.ignoresN]

/-- The class mask sees the same in a word and in the encoding of what it decodes to. -/
theorem and_F000_of_decode {fs : Bool} {w : Word} {i : Instr} (h : decode fs w = .ok i) :
    encode i &&& 0xF000#16 = w &&& 0xF000#16 := by
  rw [encode_of_decode h]
  split
  · exact and_FFF0_and_F000 w
  · rfl

/-- Settles O4: the word is the encoding of what it decodes to but for an ignored low nibble, and a
row ignores it exactly in the two classes, which a word shares with that encoding. -/
theorem encodeDecodeRoundTrip : Obligations.EncodeDecodeRoundTrip := by
  intro fs w i h
  have hclass := ignoresN_iff_class i
  rw [and_F000_of_decode h] at hclass
  refine ⟨wellFormed_of_decode h, (encode_of_decode h).trans ?_⟩
  simp only [hclass]

/-! ## The row of an instruction -/

/-- The row of an instruction: the constructors stand in the order of the map (R90). -/
def Instr.HasRow (i : Instr) (r : OpcodeRow) : Prop := opcodeMap[i.ctorIdx]? = some r

theorem Instr.HasRow.mem {i : Instr} {r : OpcodeRow} (h : i.HasRow r) : r ∈ opcodeMap :=
  List.mem_of_getElem? h

theorem Instr.HasRow.unique {i : Instr} {r r' : OpcodeRow} (h : i.HasRow r) (h' : i.HasRow r') :
    r = r' := Option.some.inj (h.symm.trans h')

/-- Every instruction has a row: its mnemonic, its configuration, and its word's bits under the
mask. -/
theorem Instr.exists_hasRow (i : Instr) : ∃ r, i.HasRow r ∧ i.mnemonic = r.mnemonic ∧
    r.fullSetOnly = i.isFullSet ∧ (i.ignoresN = true → r.mask = 0xF000#16) ∧
    encode i &&& r.mask = r.code := by
  cases i
  all_goals refine ⟨_, rfl, rfl, rfl, ?_, ?_⟩
  all_goals simp [Instr.ignoresN, encode, and_F000_eq_iff, and_F00F_eq_iff, and_F0FF_eq_iff]

/-- A word that is decoded matches the enabled row of its instruction. -/
theorem exists_row_of_decode {fs : Bool} {w : Word} {i : Instr} (h : decode fs w = .ok i) :
    ∃ r, i.HasRow r ∧ i.mnemonic = r.mnemonic ∧ r.enabled fs = true ∧ r.matchesWord w = true := by
  obtain ⟨r, hrow, hname, hset, hmask, hcode⟩ := i.exists_hasRow
  refine ⟨r, hrow, hname, ?_, beq_iff_eq.mpr ?_⟩
  · have hwf := wellFormed_of_decode h
    rwa [wellFormed, ← hset] at hwf
  · cases hn : i.ignoresN with
    | false => rw [← hcode, encode_of_decode h, hn]; rfl
    | true => rw [← hcode, hmask hn, and_F000_of_decode h]

/-! ## What each row decodes to -/

section Rows

variable {fs : Bool} {w : Word}

theorem decode_of_class_call (h : fieldClass w = 2#4) :
    decode fs w = .ok (.call (fieldNNN w)) := by
  unfold decode
  rw [h]
  rfl

theorem decode_of_class_seReg (h : fieldClass w = 5#4) :
    decode fs w = .ok (.seReg (fieldX w) (fieldY w)) := by
  unfold decode
  rw [h]
  rfl

theorem decode_of_class_sneReg (h : fieldClass w = 9#4) :
    decode fs w = .ok (.sneReg (fieldX w) (fieldY w)) := by
  unfold decode
  rw [h]
  rfl

theorem decode_of_class_jpV0 (h : fieldClass w = 0xB#4) :
    decode fs w = .ok (.jpV0 (fieldNNN w)) := by
  unfold decode
  rw [h]
  rfl

theorem decode_of_class_rnd (h : fieldClass w = 0xC#4) :
    decode fs w = .ok (.rnd (fieldX w) (fieldKK w)) := by
  unfold decode
  rw [h]
  rfl

theorem decode_of_class_drw (h : fieldClass w = 0xD#4) :
    decode fs w = .ok (.drw (fieldX w) (fieldY w) (fieldN w)) := by
  unfold decode
  rw [h]
  rfl

theorem decode_of_classE (h : fieldClass w = 0xE#4) : decode fs w = decodeClassE fs w := by
  unfold decode
  rw [h]
  rfl

theorem decode_of_classF (h : fieldClass w = 0xF#4) : decode fs w = decodeClassF fs w := by
  unfold decode
  rw [h]
  rfl

theorem decode_addReg (h : w &&& 0xF00F#16 = 0x8004#16) :
    decode fs w = .ok (.addReg (fieldX w) (fieldY w)) := by
  rw [decode_of_maskN_class8 h rfl, decodeClass8, fieldN_of_maskN h]
  rfl

theorem decode_sub (h : w &&& 0xF00F#16 = 0x8005#16) :
    decode fs w = .ok (.sub (fieldX w) (fieldY w)) := by
  rw [decode_of_maskN_class8 h rfl, decodeClass8, fieldN_of_maskN h]
  rfl

theorem decode_shr (h : w &&& 0xF00F#16 = 0x8006#16) :
    decode fs w = .ok (.shr (fieldX w) (fieldY w)) := by
  rw [decode_of_maskN_class8 h rfl, decodeClass8, fieldN_of_maskN h]
  rfl

theorem decode_subn (h : w &&& 0xF00F#16 = 0x8007#16) :
    decode fs w = .ok (.subn (fieldX w) (fieldY w)) := by
  rw [decode_of_maskN_class8 h rfl, decodeClass8, fieldN_of_maskN h]
  rfl

theorem decode_shl (h : w &&& 0xF00F#16 = 0x800E#16) :
    decode fs w = .ok (.shl (fieldX w) (fieldY w)) := by
  rw [decode_of_maskN_class8 h rfl, decodeClass8, fieldN_of_maskN h]
  rfl

/-- A row whose mask is 0xF0FF and whose class is 0xE goes to the table of that class. -/
theorem decode_of_maskKK_classE {c : Word} (h : w &&& 0xF0FF#16 = c)
    (hc : c.extractLsb' 12 4 = 0xE#4) : decode fs w = decodeClassE fs w :=
  decode_of_classE ((fields_of_maskKK h).1.trans hc)

/-- A row whose mask is 0xF0FF and whose class is 0xF goes to the table of that class. -/
theorem decode_of_maskKK_classF {c : Word} (h : w &&& 0xF0FF#16 = c)
    (hc : c.extractLsb' 12 4 = 0xF#4) : decode fs w = decodeClassF fs w :=
  decode_of_classF ((fields_of_maskKK h).1.trans hc)

theorem decode_skp (h : w &&& 0xF0FF#16 = 0xE09E#16) :
    decode true w = .ok (.skp (fieldX w)) := by
  rw [decode_of_maskKK_classE h rfl, decodeClassE, (fields_of_maskKK h).2]
  rfl

theorem decode_sknp (h : w &&& 0xF0FF#16 = 0xE0A1#16) :
    decode true w = .ok (.sknp (fieldX w)) := by
  rw [decode_of_maskKK_classE h rfl, decodeClassE, (fields_of_maskKK h).2]
  rfl

theorem decode_ldVxDt (h : w &&& 0xF0FF#16 = 0xF007#16) :
    decode true w = .ok (.ldVxDt (fieldX w)) := by
  rw [decode_of_maskKK_classF h rfl, decodeClassF, (fields_of_maskKK h).2]
  rfl

theorem decode_ldVxK (h : w &&& 0xF0FF#16 = 0xF00A#16) :
    decode true w = .ok (.ldVxK (fieldX w)) := by
  rw [decode_of_maskKK_classF h rfl, decodeClassF, (fields_of_maskKK h).2]
  rfl

theorem decode_ldDtVx (h : w &&& 0xF0FF#16 = 0xF015#16) :
    decode true w = .ok (.ldDtVx (fieldX w)) := by
  rw [decode_of_maskKK_classF h rfl, decodeClassF, (fields_of_maskKK h).2]
  rfl

theorem decode_ldStVx (h : w &&& 0xF0FF#16 = 0xF018#16) :
    decode true w = .ok (.ldStVx (fieldX w)) := by
  rw [decode_of_maskKK_classF h rfl, decodeClassF, (fields_of_maskKK h).2]
  rfl

theorem decode_addIVx (h : w &&& 0xF0FF#16 = 0xF01E#16) :
    decode true w = .ok (.addIVx (fieldX w)) := by
  rw [decode_of_maskKK_classF h rfl, decodeClassF, (fields_of_maskKK h).2]
  rfl

theorem decode_ldFVx (h : w &&& 0xF0FF#16 = 0xF029#16) :
    decode true w = .ok (.ldFVx (fieldX w)) := by
  rw [decode_of_maskKK_classF h rfl, decodeClassF, (fields_of_maskKK h).2]
  rfl

theorem decode_ldBVx (h : w &&& 0xF0FF#16 = 0xF033#16) :
    decode true w = .ok (.ldBVx (fieldX w)) := by
  rw [decode_of_maskKK_classF h rfl, decodeClassF, (fields_of_maskKK h).2]
  rfl

theorem decode_storeRegs (h : w &&& 0xF0FF#16 = 0xF055#16) :
    decode true w = .ok (.storeRegs (fieldX w)) := by
  rw [decode_of_maskKK_classF h rfl, decodeClassF, (fields_of_maskKK h).2]
  rfl

theorem decode_loadRegs (h : w &&& 0xF0FF#16 = 0xF065#16) :
    decode true w = .ok (.loadRegs (fieldX w)) := by
  rw [decode_of_maskKK_classF h rfl, decodeClassF, (fields_of_maskKK h).2]
  rfl

end Rows

/-- A word that matches a row of the base configuration decodes to an instruction of that row. -/
theorem decode_of_matches_base (fs : Bool) (w : Word) : ∀ r ∈ opcodeMapBase,
    r.matchesWord w = true → ∃ i, decode fs w = .ok i ∧ i.HasRow r := by
  simp only [opcodeMapBase, List.cons_append, List.nil_append, List.forall_mem_cons,
    OpcodeRow.matchesWord, beq_iff_eq]
  refine ⟨
    fun h => ⟨.cls, ?_, rfl⟩,
    fun h => ⟨.ret, ?_, rfl⟩,
    fun h => ⟨_, decode_of_class_jp (fieldClass_of_mask h), rfl⟩,
    fun h => ⟨_, decode_of_class_call (fieldClass_of_mask h), rfl⟩,
    fun h => ⟨_, decode_of_class_seImm (fieldClass_of_mask h), rfl⟩,
    fun h => ⟨_, decode_of_class_sneImm (fieldClass_of_mask h), rfl⟩,
    fun h => ⟨_, decode_of_class_seReg (fieldClass_of_mask h), rfl⟩,
    fun h => ⟨_, decode_of_class_ldImm (fieldClass_of_mask h), rfl⟩,
    fun h => ⟨_, decode_of_class_addImm (fieldClass_of_mask h), rfl⟩,
    fun h => ⟨_, (decode_of_maskN_class8 h rfl).trans
      (decodeClass8_of_fieldN_zero (fieldN_of_maskN h)), rfl⟩,
    fun h => ⟨_, (decode_of_maskN_class8 h rfl).trans
      (decodeClass8_of_fieldN_one (fieldN_of_maskN h)), rfl⟩,
    fun h => ⟨_, (decode_of_maskN_class8 h rfl).trans
      (decodeClass8_of_fieldN_two (fieldN_of_maskN h)), rfl⟩,
    fun h => ⟨_, (decode_of_maskN_class8 h rfl).trans
      (decodeClass8_of_fieldN_three (fieldN_of_maskN h)), rfl⟩,
    fun h => ⟨_, decode_addReg h, rfl⟩,
    fun h => ⟨_, decode_sub h, rfl⟩,
    fun h => ⟨_, decode_shr h, rfl⟩,
    fun h => ⟨_, decode_subn h, rfl⟩,
    fun h => ⟨_, decode_shl h, rfl⟩,
    fun h => ⟨_, decode_of_class_sneReg (fieldClass_of_mask h), rfl⟩,
    fun h => ⟨_, decode_of_class_ldI (fieldClass_of_mask h), rfl⟩,
    fun h => ⟨_, decode_of_class_jpV0 (fieldClass_of_mask h), rfl⟩,
    fun h => ⟨_, decode_of_class_rnd (fieldClass_of_mask h), rfl⟩,
    fun h => ⟨_, decode_of_class_drw (fieldClass_of_mask h), rfl⟩,
    fun r hr => absurd hr List.not_mem_nil⟩
  · rw [show w = 0x00E0#16 from (BitVec.and_allOnes (x := w)).symm.trans h]
    rfl
  · rw [show w = 0x00EE#16 from (BitVec.and_allOnes (x := w)).symm.trans h]
    rfl

/-- A word that matches a row of `FULL_SET` decodes to an instruction of that row. -/
theorem decode_of_matches_fullSet (w : Word) : ∀ r ∈ opcodeMapFullSet, r.matchesWord w = true →
    ∃ i, decode true w = .ok i ∧ i.HasRow r := by
  simp only [opcodeMapFullSet, List.forall_mem_cons, OpcodeRow.matchesWord, beq_iff_eq]
  exact ⟨
    fun h => ⟨_, decode_skp h, rfl⟩,
    fun h => ⟨_, decode_sknp h, rfl⟩,
    fun h => ⟨_, decode_ldVxDt h, rfl⟩,
    fun h => ⟨_, decode_ldVxK h, rfl⟩,
    fun h => ⟨_, decode_ldDtVx h, rfl⟩,
    fun h => ⟨_, decode_ldStVx h, rfl⟩,
    fun h => ⟨_, decode_addIVx h, rfl⟩,
    fun h => ⟨_, decode_ldFVx h, rfl⟩,
    fun h => ⟨_, decode_ldBVx h, rfl⟩,
    fun h => ⟨_, decode_storeRegs h, rfl⟩,
    fun h => ⟨_, decode_loadRegs h, rfl⟩,
    fun r hr => absurd hr List.not_mem_nil⟩

/-- A word that matches an enabled row decodes to an instruction of that row. -/
theorem decode_of_matches {fs : Bool} {w : Word} {r : OpcodeRow} (hr : r ∈ opcodeMap)
    (hon : r.enabled fs = true) (hm : r.matchesWord w = true) :
    ∃ i, decode fs w = .ok i ∧ i.HasRow r := by
  rcases List.mem_append.mp hr with hbase | hset
  · exact decode_of_matches_base fs w r hbase hm
  · have honly : ∀ r ∈ opcodeMapFullSet, r.fullSetOnly = true := by decide
    have hfs : fs = true := by simpa [OpcodeRow.enabled, honly r hset] using hon
    exact hfs ▸ decode_of_matches_fullSet w r hset hm

theorem Instr.HasRow.mnemonic_eq {i : Instr} {r : OpcodeRow} (h : i.HasRow r) :
    i.mnemonic = r.mnemonic := by
  obtain ⟨r', hrow, hname, -⟩ := i.exists_hasRow
  rw [hname, h.unique hrow]

/-- Settles O2: matching and decoding agree on the row of an instruction, and decoding is a
function, so two rows that match one word are the row of one instruction. -/
theorem decodeFollowsOpcodeMap : Obligations.DecodeFollowsOpcodeMap := by
  refine ⟨rfl, rfl, fun fs w => ⟨fun r hr hon hm => ?_, fun i h => ?_, ?_⟩⟩
  · obtain ⟨i, hi, hrow⟩ := decode_of_matches hr hon hm
    exact ⟨i, hi, hrow.mnemonic_eq⟩
  · obtain ⟨r, hrow, hname, hon, hm⟩ := exists_row_of_decode h
    exact ⟨r, hrow.mem, hon, hm, hname⟩
  · intro r hr r' hr' hon hon' hm hm'
    obtain ⟨i, hi, hrow⟩ := decode_of_matches hr hon hm
    obtain ⟨i', hi', hrow'⟩ := decode_of_matches hr' hon' hm'
    have hii : i = i' := Except.ok.inj (hi.symm.trans hi')
    exact hrow.unique (hii ▸ hrow')

/-! ## The words that are no instruction -/

theorem decodeClass0_eq_error_iff (w : Word) :
    decodeClass0 w = .error (.unknownOpcode w) ↔ w ≠ 0x00E0#16 ∧ w ≠ 0x00EE#16 := by
  unfold decodeClass0
  by_cases hcls : w = 0x00E0#16
  · simp [hcls]
  · by_cases hret : w = 0x00EE#16 <;> simp [hcls, hret]

theorem decodeClass8_eq_error_iff (w : Word) :
    decodeClass8 w = .error (.unknownOpcode w) ↔
      w.toNat % 16 ∈ [8, 9, 0xA, 0xB, 0xC, 0xD, 0xF] := by
  unfold decodeClass8
  dsimp only
  split <;> simp only [fieldN_val, imp_false] at *
  case h_10 =>
    simp only [List.mem_cons, List.not_mem_nil, or_false, true_iff]
    omega
  all_goals next hn => simp [hn]

theorem decodeClassE_eq_error_iff (fs : Bool) (w : Word) :
    decodeClassE fs w = .error (.unknownOpcode w) ↔
      fs = false ∨ w.toNat % 256 ∉ [0x9E, 0xA1] := by
  unfold decodeClassE
  cases fs
  case false => simp
  case true =>
    simp only [Bool.not_true, Bool.false_eq_true, if_false, reduceCtorEq, false_or]
    split <;> simp only [fieldKK_toNat, imp_false] at *
    case h_3 => simp [*]
    all_goals next hkk => simp [hkk]

theorem decodeClassF_eq_error_iff (fs : Bool) (w : Word) :
    decodeClassF fs w = .error (.unknownOpcode w) ↔
      fs = false ∨ w.toNat % 256 ∉ [0x07, 0x0A, 0x15, 0x18, 0x1E, 0x29, 0x33, 0x55, 0x65] := by
  unfold decodeClassF
  cases fs
  case false => simp
  case true =>
    simp only [Bool.not_true, Bool.false_eq_true, if_false, reduceCtorEq, false_or]
    split <;> simp only [fieldKK_toNat, imp_false] at *
    case h_10 => simp [*]
    all_goals next hkk => simp [hkk]

/-- Settles O5: by class; four classes have a table of their own, and the other twelve decode every
word. -/
theorem unknownWordsAreExactly : Obligations.UnknownWordsAreExactly := by
  intro fs w
  have hlt := w.isLt
  unfold decode
  split <;> simp only [fieldClass_toNat, imp_false] at *
  case h_1 hc => simp [hc, decodeClass0_eq_error_iff]
  case h_9 hc => simp [hc, decodeClass8_eq_error_iff]
  case h_15 hc => simp [hc, decodeClassE_eq_error_iff]
  case h_16 =>
    have hc : w.toNat / 4096 = 0xF := by omega
    simp [hc, decodeClassF_eq_error_iff]
  all_goals next hc => simp [hc]

/-- Settles O6: each word is evaluated. -/
theorem sampleWordsDecode : Obligations.SampleWordsDecode := by
  unfold Obligations.SampleWordsDecode
  decide

end Sys2Proof
end


section
/-! PROOFS. The rules that the later proofs use: frames of the named updates, the fatal condition of
an instruction (60_exceptions.md R230-R236), what an execution does to memory and PC, and the one
induction over a STEP and over a transaction. -/

namespace Sys2Proof.Machine

/-! ## Frames -/

theorem Part.Same.refl (p : Part) (s : State) : p.Same s s :=
  UnchangedBut.refl [] s p List.not_mem_nil

theorem Part.Same.trans {p : Part} {s t u : State} (h : p.Same s t) (h' : p.Same t u) :
    p.Same s u := by
  cases p
  case mem => exact fun a => (h' a).trans (h a)
  case randInput => exact ⟨h'.1.trans h.1, h'.2.trans h.2⟩
  all_goals exact Eq.trans h' h

/-- A frame stands an update whose own frame names fewer parts. -/
theorem UnchangedBut.trans {small changed : List Part} {s t u : State}
    (h : UnchangedBut changed s t) (hu : UnchangedBut small t u) (hsub : small ⊆ changed) :
    UnchangedBut changed s u :=
  fun p hp => (h p hp).trans (hu p fun hmem => hp (hsub hmem))

theorem UnchangedBut.raiseFatal (s : State) (k : FatalKind) :
    UnchangedBut [.status] s (s.raiseFatal k) := by
  intro p hp
  cases p
  case status => simp at hp
  all_goals simp [Part.Same]

theorem UnchangedBut.present (s : State) (fb : Framebuffer) :
    UnchangedBut [.fb, .drawPending] s (s.present fb) := by
  intro p hp
  cases p
  case fb | drawPending => simp at hp
  all_goals simp [Part.Same]

theorem UnchangedBut.writeBytes (s : State) (a : Nat) (bs : List Byte) :
    UnchangedBut [.mem] s (s.writeBytes a bs) := by
  intro p hp
  cases p
  case mem => simp at hp
  all_goals simp [Part.Same]

theorem UnchangedBut.loadRegsUpTo (s : State) (x : VReg) :
    UnchangedBut [.v] s (s.loadRegsUpTo x) := by
  intro p hp
  cases p
  case v => simp at hp
  all_goals simp [Part.Same]

theorem UnchangedBut.clearDraw (s : State) : UnchangedBut [.drawPending] s s.clearDraw := by
  intro p hp
  cases p
  case drawPending => simp at hp
  all_goals simp [Part.Same, State.clearDraw, State.readByte]

theorem UnchangedBut.push (s : State) (a : Word) : UnchangedBut [.stack, .sp] s (s.push a) := by
  intro p hp
  cases p
  case stack | sp => simp at hp
  all_goals simp [Part.Same]

theorem UnchangedBut.pop (s : State) : UnchangedBut [.stack, .sp] s s.pop := by
  intro p hp
  cases p
  case stack | sp => simp at hp
  all_goals simp [Part.Same]

/-! ## The end of a STEP -/

section Finish

variable (s : State) (r : Option Report)

@[simp] theorem State.finish_v : (s.finish r).v = s.v := by unfold State.finish; split <;> rfl
@[simp] theorem State.finish_V (x : VReg) : (s.finish r).V x = s.V x := by simp [State.V]
@[simp] theorem State.finish_i : (s.finish r).i = s.i := by unfold State.finish; split <;> rfl
@[simp] theorem State.finish_pc : (s.finish r).pc = s.pc := by unfold State.finish; split <;> rfl
@[simp] theorem State.finish_stack : (s.finish r).stack = s.stack := by
  unfold State.finish; split <;> rfl
@[simp] theorem State.finish_sp : (s.finish r).sp = s.sp := by unfold State.finish; split <;> rfl
@[simp] theorem State.finish_fb : (s.finish r).fb = s.fb := by unfold State.finish; split <;> rfl
@[simp] theorem State.finish_drawPending : (s.finish r).drawPending = s.drawPending := by
  unfold State.finish; split <;> rfl
@[simp] theorem State.finish_status : (s.finish r).status = s.status := by
  unfold State.finish; split <;> rfl
@[simp] theorem State.finish_keys : (s.finish r).keys = s.keys := by
  unfold State.finish; split <;> rfl
@[simp] theorem State.finish_mem : (s.finish r).mem = s.mem := by unfold State.finish; split <;> rfl
@[simp] theorem State.finish_params : (s.finish r).params = s.params := by
  unfold State.finish; split <;> rfl
@[simp] theorem State.finish_readByte (a : Nat) : (s.finish r).readByte a = s.readByte a := by
  simp [State.readByte]

end Finish

/-- The end of a STEP touches the timers, the random input and the result only. -/
theorem UnchangedBut.finish (s : State) (r : Option Report) :
    UnchangedBut [.dt, .st, .out, .randInput] s (s.finish r) := by
  intro p hp
  cases p
  case dt | st | out | randInput => simp at hp
  all_goals simp [Part.Same]

/-- A halted block does not tick. -/
theorem UnchangedBut.finish_of_halted {s : State} {k : FatalKind} (h : s.status = .halted k)
    (r : Option Report) : UnchangedBut [.out, .randInput] s (s.finish r) := by
  rw [Machine.finish_of_halted h]
  intro p hp
  cases p
  case out | randInput => simp at hp
  all_goals simp [Part.Same]

/-! ## The fatal condition of an instruction -/

/-- The condition of R230 that an instruction meets in a state, if any: the stack bounds (R234,
R235) and the data bound, computed without wrap (R236). -/
def fatalCondition (i : Instr) (s : State) : Option FatalKind :=
  match i with
  | .ret => if s.sp.val = 0 then some .stackUnderflow else none
  | .call _ => if s.sp.val = 16 then some .stackOverflow else none
  | .drw _ _ n =>
    if n.val > 0 ∧ s.i.toNat + n.val - 1 > 0xFFF then some .dataAccessOutOfBounds else none
  | .ldBVx _ => if s.i.toNat + 2 > 0xFFF then some .dataAccessOutOfBounds else none
  | .storeRegs x => if s.i.toNat + x.val > 0xFFF then some .dataAccessOutOfBounds else none
  | .loadRegs x => if s.i.toNat + x.val > 0xFFF then some .dataAccessOutOfBounds else none
  | _ => none

theorem State.stackEmpty_iff (s : State) : s.stackEmpty = true ↔ s.sp.val = 0 := decide_eq_true_iff

theorem State.stackFull_iff (s : State) : s.stackFull = true ↔ s.sp.val = 16 := decide_eq_true_iff

theorem State.dataOutOfBounds_iff (s : State) (last : Nat) :
    s.dataOutOfBounds last = true ↔ s.i.toNat + last > 0xFFF := decide_eq_true_iff

/-- The model's check of a draw, as R186 writes it. -/
theorem State.drawOutOfBounds_iff (s : State) (n : Nat) :
    (n > 0 ∧ s.dataOutOfBounds (n - 1) = true) ↔ n > 0 ∧ s.i.toNat + n - 1 > 0xFFF := by
  rw [State.dataOutOfBounds_iff]
  omega

section Fatal

variable {i : Instr} {s t : State}

theorem exec_ret (s : State) : exec .ret s =
    if s.sp.val = 0 then .next (s.raiseFatal .stackUnderflow) else .next (s.pop.setPc s.top) := by
  simp only [exec, execRet, State.stackEmpty_iff]

theorem exec_call (nnn : Addr12) (s : State) : exec (.call nnn) s =
    if s.sp.val = 16 then .next (s.raiseFatal .stackOverflow)
    else .next ((s.push (trunc16 (s.pc.toNat + 2))).setPc (addressOperand nnn)) := by
  simp only [exec, execCall, State.stackFull_iff]

theorem exec_ldBVx (x : VReg) (s : State) : exec (.ldBVx x) s =
    if s.i.toNat + 2 > 0xFFF then .next (s.raiseFatal .dataAccessOutOfBounds)
    else .next (s.writeBytes (s.dataAddress 0) (bcdDigits (s.V x))).advance := by
  simp only [exec, execLdBVx, State.dataOutOfBounds_iff]

theorem exec_storeRegs (x : VReg) (s : State) : exec (.storeRegs x) s =
    if s.i.toNat + x.val > 0xFFF then .next (s.raiseFatal .dataAccessOutOfBounds)
    else .next (s.writeBytes (s.dataAddress 0) (s.regsUpTo x)).advance := by
  simp only [exec, execStoreRegs, State.dataOutOfBounds_iff]

theorem exec_loadRegs (x : VReg) (s : State) : exec (.loadRegs x) s =
    if s.i.toNat + x.val > 0xFFF then .next (s.raiseFatal .dataAccessOutOfBounds)
    else .next (s.loadRegsUpTo x).advance := by
  simp only [exec, execLoadRegs, State.dataOutOfBounds_iff]

/-- A draw past the end of memory halts before any write (R186). -/
theorem exec_drw_of_outOfBounds (x y : VReg) {n : Fin 16}
    (h : n.val > 0 ∧ s.i.toNat + n.val - 1 > 0xFFF) :
    exec (.drw x y n) s = .next (s.raiseFatal .dataAccessOutOfBounds) :=
  if_pos ((s.drawOutOfBounds_iff n.val).mpr h)

/-- An instruction that meets its fatal condition raises it and does nothing else. -/
theorem exec_of_fatalCondition {k : FatalKind} (h : fatalCondition i s = some k) :
    exec i s = .next (s.raiseFatal k) := by
  cases i <;> simp only [fatalCondition, Option.ite_none_right_eq_some, Option.some.injEq,
    reduceCtorEq] at h
  all_goals obtain ⟨hc, rfl⟩ := h
  case ret => rw [exec_ret, if_pos hc]
  case call => rw [exec_call, if_pos hc]
  case drw => exact exec_drw_of_outOfBounds _ _ hc
  case ldBVx => rw [exec_ldBVx, if_pos hc]
  case storeRegs => rw [exec_storeRegs, if_pos hc]
  case loadRegs => rw [exec_loadRegs, if_pos hc]

/-- Any other execution completes and keeps STATUS. -/
theorem exec_of_no_fatalCondition (h : fatalCondition i s = none) :
    ∃ t, exec i s = .next t ∧ t.status = s.status := by
  cases i <;> simp only [fatalCondition, ite_eq_right_iff, reduceCtorEq, imp_false] at h
  case ret => exact ⟨_, by rw [exec_ret, if_neg h], by simp⟩
  case call => exact ⟨_, by rw [exec_call, if_neg h], by simp⟩
  case drw x y n =>
    exact ⟨_, exec_drw_of_inBounds x y fun hc => h ((s.drawOutOfBounds_iff n.val).mp hc), by simp⟩
  case ldBVx => exact ⟨_, by rw [exec_ldBVx, if_neg h], by simp⟩
  case storeRegs => exact ⟨_, by rw [exec_storeRegs, if_neg h], by simp⟩
  case loadRegs => exact ⟨_, by rw [exec_loadRegs, if_neg h], by simp⟩
  case ldVxK x =>
    simp only [exec, execLdVxK]
    split <;> exact ⟨_, rfl, rfl⟩
  all_goals exact ⟨_, rfl, rfl⟩

/-- Every execution answers a next state: no operand and no state stops the model (R240). -/
theorem exec_answers (i : Instr) (s : State) : ∃ t, exec i s = .next t := by
  cases h : fatalCondition i s with
  | some k => exact ⟨_, exec_of_fatalCondition h⟩
  | none => exact (exec_of_no_fatalCondition h).imp fun _ ht => ht.1

/-- From a running state an execution halts exactly on its fatal condition, with its kind. -/
theorem exec_halts_iff (hs : s.status = .running) (h : exec i s = .next t) (k : FatalKind) :
    t.status = .halted k ↔ fatalCondition i s = some k := by
  cases hc : fatalCondition i s with
  | some k' =>
    cases (exec_of_fatalCondition hc).symm.trans h
    simp
  | none =>
    obtain ⟨u, hu, hstatus⟩ := exec_of_no_fatalCondition hc
    cases hu.symm.trans h
    simp [hstatus, hs]

end Fatal

/-! ## What an execution does to memory and PC -/

section Exec

variable {i : Instr} {s t : State}

theorem State.regsUpTo_length (s : State) (x : VReg) : (s.regsUpTo x).length = x.val + 1 := by
  simp [State.regsUpTo]

/-- Memory: kept, or bytes written at I and after it inside the address space (20_memory.md R66). -/
theorem exec_memory_writes (h : exec i s = .next t) : t.mem = s.mem ∨
    ∃ bs : List Byte, s.i.toNat + bs.length ≤ Config.memSize ∧
      t.mem = (s.writeBytes s.i.toNat bs).mem := by
  cases i
  case ret => rw [exec_ret] at h; split at h <;> cases h <;> simp
  case call nnn => rw [exec_call] at h; split at h <;> cases h <;> simp
  case drw x y n => simp only [exec, execDrw] at h; split at h <;> cases h <;> simp
  case ldVxK x => simp only [exec, execLdVxK] at h; split at h <;> cases h <;> simp
  case loadRegs x => rw [exec_loadRegs] at h; split at h <;> cases h <;> simp
  case ldBVx x =>
    rw [exec_ldBVx] at h
    split at h <;> cases h
    · exact .inl rfl
    · refine .inr ⟨bcdDigits (s.V x), ?_, rfl⟩
      simp only [bcdDigits, List.length_cons, List.length_nil, Config.memSize]
      omega
  case storeRegs x =>
    rw [exec_storeRegs] at h
    split at h <;> cases h
    · exact .inl rfl
    · refine .inr ⟨s.regsUpTo x, ?_, rfl⟩
      rw [State.regsUpTo_length, Config.memSize]
      omega
  all_goals cases h; simp

/-- PC: kept by a fatal condition or a poll, moved by 2 or 4, or set to a jump target or to the
popped address (40_cycle.md R105). -/
theorem exec_pc (h : exec i s = .next t) : t.pc = s.pc ∨ t.pc = s.pc + 2 ∨ t.pc = s.pc + 4 ∨
    (∃ (nnn : Addr12) (b : Byte), t.pc = trunc16 (nnn.toNat + b.toNat)) ∨ t.pc = s.top := by
  cases i
  case ret => rw [exec_ret] at h; split at h <;> cases h <;> simp
  case call nnn =>
    rw [exec_call] at h
    split at h <;> cases h
    · exact .inl rfl
    · exact .inr (.inr (.inr (.inl ⟨nnn, 0#8, rfl⟩)))
  case jp nnn => cases h; exact .inr (.inr (.inr (.inl ⟨nnn, 0#8, rfl⟩)))
  case jpV0 nnn => cases h; exact .inr (.inr (.inr (.inl ⟨nnn, s.V 0, rfl⟩)))
  case seImm | sneImm | seReg | sneReg | skp | sknp =>
    cases h
    rw [State.skipIf_pc]
    split <;> simp
  case drw x y n => simp only [exec, execDrw] at h; split at h <;> cases h <;> simp
  case ldVxK x => simp only [exec, execLdVxK] at h; split at h <;> cases h <;> simp
  case ldBVx x => rw [exec_ldBVx] at h; split at h <;> cases h <;> simp
  case storeRegs x => rw [exec_storeRegs] at h; split at h <;> cases h <;> simp
  case loadRegs x => rw [exec_loadRegs] at h; split at h <;> cases h <;> simp
  case ldDtVx | ldStVx => cases h; exact .inr (.inl (State.advance_pc s))
  all_goals cases h; simp

end Exec

/-! ## The induction over a STEP and over a transaction -/

theorem State.fetchOutOfBounds_iff (s : State) :
    s.fetchOutOfBounds = true ↔ s.pc.toNat + 1 ≥ 4096 := decide_eq_true_iff

theorem State.fetchInBounds_iff (s : State) :
    s.fetchOutOfBounds = false ↔ s.pc.toNat + 1 < 4096 := by
  rw [← Bool.not_eq_true, State.fetchOutOfBounds_iff]
  omega

section Step

variable {s : State}

theorem step_of_halted {k : FatalKind} (h : s.status = .halted k) :
    step s = .next (s.finish none) := by
  unfold step
  rw [h]

theorem step_of_fetchOutOfBounds (hs : s.status = .running) (hpc : s.pc.toNat + 1 ≥ 4096) :
    step s = .next ((s.raiseFatal .instructionFetchOutOfBounds).finish none) := by
  unfold step
  rw [hs]
  exact if_pos (s.fetchOutOfBounds_iff.mpr hpc)

theorem step_of_unknown {w : Word} (hs : s.status = .running) (hpc : s.pc.toNat + 1 < 4096)
    (hd : decode s.params.fullSet s.fetchWord = .error (.unknownOpcode w)) :
    step s = .next (s.skipUnknown.finish (some ⟨w, s.pc⟩)) := by
  unfold step
  rw [hs, s.fetchInBounds_iff.mpr hpc, hd]
  rfl

theorem step_of_decoded {i : Instr} (hs : s.status = .running) (hpc : s.pc.toNat + 1 < 4096)
    (hd : decode s.params.fullSet s.fetchWord = .ok i) : step s = completeStep (exec i s) := by
  unfold step
  rw [hs, s.fetchInBounds_iff.mpr hpc, hd]
  rfl

end Step

/-- A property that the end of a STEP, a fatal condition, the skip of an UNKNOWN word and every
execution keep is kept by a STEP. -/
theorem step_keeps {P : State → Prop} {s t : State}
    (hfinish : ∀ u r, P u → P (u.finish r)) (hfatal : ∀ k, P s → P (s.raiseFatal k))
    (hskip : s.pc.toNat + 1 < 4096 → P s → P s.skipUnknown)
    (hexec : ∀ i u, s.pc.toNat + 1 < 4096 → decode s.params.fullSet s.fetchWord = .ok i →
      exec i s = .next u → P s → P u)
    (hs : P s) (h : step s = .next t) : P t := by
  obtain ⟨k, -, rfl⟩ | ⟨-, -, rfl⟩ | ⟨-, hb, w, -, rfl⟩ | ⟨-, hb, i, u, hi, hu, rfl⟩ := step_cases h
  · exact hfinish _ _ hs
  · exact hfinish _ _ (hfatal _ hs)
  · exact hfinish _ _ (hskip (s.fetchInBounds_iff.mp hb) hs)
  · exact hfinish _ _ (hexec i u (s.fetchInBounds_iff.mp hb) hi hu hs)

/-- The state in which the STEP transaction runs: its byte stands before the waiting input. -/
def State.supplyRand8 (s : State) (r : Byte) : State := { s with randIn := r :: s.randIn }

@[simp] theorem State.resetBlock_i (s : State) : s.resetBlock.i = 0#16 := rfl
@[simp] theorem State.resetBlock_pc (s : State) : s.resetBlock.pc = 0x200#16 := rfl
@[simp] theorem State.resetBlock_stack (s : State) :
    s.resetBlock.stack = Vector.replicate 16 0#16 := rfl

/-- What a transaction answers: each is one function of the state, and STEP is a step. -/
theorem transact_cases {tr : Transaction} {s t : State} {a : Response}
    (h : transact tr s = .next (t, a)) :
    (tr = .reset ∧ t = s.resetBlock) ∨ (∃ bytes, tr = .load bytes ∧ t = s.load bytes) ∨
    (∃ r, tr = .step r ∧ step (s.supplyRand8 r) = .next t) ∨
    (∃ k b, tr = .setKey k b ∧ t = s.setKey k b) ∨ (tr = .clearDraw ∧ t = s.clearDraw) ∨
    ((tr = .readFb ∨ tr = .readDrawPending ∨ tr = .readStatus) ∧ t = s) := by
  cases tr
  case step r =>
    simp only [transact] at h
    split at h
    · next u hu => cases h; exact .inr (.inr (.inl ⟨r, rfl, hu⟩))
    · cases h
    · cases h
  case setKey k b => cases h; exact .inr (.inr (.inr (.inl ⟨k, b, rfl, rfl⟩)))
  all_goals cases h; simp

/-- An accepted LOAD writes its bytes from 0x200 on (R274). -/
theorem State.load_of_fits (s : State) {bytes : List Byte} (h : bytes.length ≤ 3584) :
    s.load bytes = s.writeBytes 0x200 bytes :=
  if_neg fun hlong => Nat.not_lt.mpr h ((programTooLong_iff bytes).mp hlong)

/-- A property that every STEP and every other transaction keeps is kept by a transaction. -/
theorem transact_keeps {P : State → Prop} {tr : Transaction} {s t : State} {a : Response}
    (hreset : P s → P s.resetBlock)
    (hload : ∀ bytes : List Byte, bytes.length ≤ 3584 → P s → P (s.writeBytes 0x200 bytes))
    (hrand : ∀ r, P s → P (s.supplyRand8 r)) (hstep : ∀ u u', P u → step u = .next u' → P u')
    (hkeys : ∀ keys, P s → P { s with keys := keys }) (hclear : P s → P s.clearDraw)
    (hs : P s) (h : transact tr s = .next (t, a)) : P t := by
  obtain ⟨-, rfl⟩ | ⟨bytes, -, rfl⟩ | ⟨r, -, hr⟩ | ⟨k, b, -, rfl⟩ | ⟨-, rfl⟩ | ⟨-, rfl⟩ :=
    transact_cases h
  · exact hreset hs
  · rcases Nat.lt_or_ge 3584 bytes.length with hlong | hfits
    · rwa [s.load_of_tooLong ((programTooLong_iff bytes).mpr hlong)]
    · rw [s.load_of_fits hfits]
      exact hload bytes hfits hs
  · exact hstep _ _ (hrand r hs) hr
  · unfold State.setKey
    split
    · exact hkeys _ hs
    · exact hs
  · exact hclear hs
  · exact hs

end Sys2Proof.Machine
end


section
/-! PROOFS. The invariants of every STEP and every transaction: the canonical form of memory (log
entry 5), the free stack slots (10_state.md R27), the bound of PC (R24) and the base configuration
(R37). -/

namespace Sys2Proof

namespace Machine

/-! ## The canonical form of memory -/

theorem memoryCanonical_of_exec {i : Instr} {s t : State} (h : exec i s = .next t)
    (hs : s.MemoryCanonical) : t.MemoryCanonical := by
  obtain ⟨-, hparams, -⟩ := exec_keeps_inputs h
  unfold State.MemoryCanonical at hs ⊢
  rw [hparams]
  rcases exec_memory_writes h with hmem | ⟨bs, hbound, hmem⟩
  · rwa [hmem]
  · rw [hmem]
    exact Memory.wf_writeList _ hs hbound

theorem memoryCanonical_of_step {s t : State} (hs : s.MemoryCanonical) (h : step s = .next t) :
    t.MemoryCanonical := by
  refine step_keeps (fun u r hu => ?_) (fun _ => id) (fun _ => id)
    (fun _ _ _ _ hexec => memoryCanonical_of_exec hexec) hs h
  unfold State.MemoryCanonical
  rwa [State.finish_mem, State.finish_params]

/-! ## The free stack slots -/

theorem State.FreeSlotsZero.push {s : State} (hs : s.FreeSlotsZero) (hsp : s.sp.val < 16)
    (a : Word) : (s.push a).FreeSlotsZero := by
  rw [State.push_of_lt s a hsp]
  intro j hj
  have hj : s.sp.val + 1 ≤ j.val := hj
  simp only [Vector.getElem_set_ne hsp j.isLt (by omega)]
  exact hs j (by omega)

theorem State.FreeSlotsZero.pop {s : State} (hs : s.FreeSlotsZero) (hsp : 0 < s.sp.val) :
    s.pop.FreeSlotsZero := by
  rw [State.pop_of_pos s hsp]
  intro j hj
  have hj : s.sp.val - 1 ≤ j.val := hj
  by_cases hpopped : s.sp.val - 1 = j.val
  · simp [hpopped]
  · simp only [Vector.getElem_set_ne _ j.isLt hpopped]
    exact hs j (by omega)

theorem freeSlotsZero_of_exec {i : Instr} {s t : State} (h : exec i s = .next t)
    (hs : s.FreeSlotsZero) : t.FreeSlotsZero := by
  obtain ⟨hstack, hsp⟩ | ⟨nnn, -, hlt, rfl⟩ | ⟨-, hpos, rfl⟩ := exec_stack h
  · unfold State.FreeSlotsZero
    rwa [hstack, hsp]
  · exact hs.push hlt _
  · exact hs.pop hpos

theorem freeSlotsZero_of_step {s t : State} (hs : s.FreeSlotsZero) (h : step s = .next t) :
    t.FreeSlotsZero := by
  refine step_keeps (fun u r hu => ?_) (fun _ => id) (fun _ => id)
    (fun _ _ _ _ hexec => freeSlotsZero_of_exec hexec) hs h
  unfold State.FreeSlotsZero
  rwa [State.finish_stack, State.finish_sp]

/-! ## The bound of PC -/

/-- The address a return pops is a stored one, or 0 when there is none. -/
theorem State.PcBounded.top_le {s : State} (hs : s.PcBounded) : s.top.toNat ≤ 0x1000 := by
  rcases Nat.eq_zero_or_pos s.sp.val with hzero | hpos
  · simp [State.top, hzero]
  · rw [State.top_of_pos s hpos]
    exact hs.2 ⟨s.sp.val - 1, by omega⟩

/-- A fetched instruction stands below 0x1000, and a jump reaches at most 0xFFF + 0xFF. -/
theorem pc_le_of_exec {i : Instr} {s t : State} (h : exec i s = .next t)
    (hpc : s.pc.toNat + 1 < 4096) (hs : s.PcBounded) : t.pc.toNat ≤ 0x10FE := by
  obtain hkept | hnext | hskip | ⟨nnn, b, hjump⟩ | hret := exec_pc h
  · rw [hkept]
    exact hs.1
  · rw [hnext]
    bv_omega
  · rw [hskip]
    bv_omega
  · have := nnn.isLt
    have := b.isLt
    rw [hjump, trunc16, BitVec.toNat_ofNat]
    omega
  · rw [hret]
    exact hs.top_le.trans (by decide)

/-- A call stores the address behind itself, which is at most 0x1000. -/
theorem stack_le_of_exec {i : Instr} {s t : State} (h : exec i s = .next t)
    (hpc : s.pc.toNat + 1 < 4096) (hs : s.PcBounded) (j : Fin 16) :
    (t.stack[j.val]).toNat ≤ 0x1000 := by
  obtain ⟨hstack, -⟩ | ⟨nnn, -, hlt, rfl⟩ | ⟨-, hpos, rfl⟩ := exec_stack h
  · simpa only [hstack] using hs.2 j
  · rw [State.push_of_lt s _ hlt]
    simp only [State.setPc_stack, Vector.getElem_set]
    split
    · rw [trunc16, BitVec.toNat_ofNat]
      omega
    · exact hs.2 j
  · rw [State.pop_of_pos s hpos]
    simp only [State.setPc_stack, Vector.getElem_set]
    split
    · simp
    · exact hs.2 j

theorem pcBounded_of_step {s t : State} (hs : s.PcBounded) (h : step s = .next t) :
    t.PcBounded := by
  refine step_keeps (fun u r hu => ?_) (fun _ => id) (fun hpc hs => ⟨?_, hs.2⟩)
    (fun _ _ hpc _ hexec hs => ⟨pc_le_of_exec hexec hpc hs, stack_le_of_exec hexec hpc hs⟩) hs h
  · unfold State.PcBounded
    rwa [State.finish_pc, State.finish_stack]
  · rw [State.skipUnknown_pc]
    bv_omega

/-! ## The base configuration -/

@[simp] theorem countdown_zero : countdown 0#8 = 0#8 := rfl

theorem State.finish_dt_of_zero {s : State} (h : s.dt = 0) (r : Option Report) :
    (s.finish r).dt = 0 := by
  unfold State.finish
  split <;> simp [h]

theorem State.finish_st_of_zero {s : State} (h : s.st = 0) (r : Option Report) :
    (s.finish r).st = 0 := by
  unfold State.finish
  split <;> simp [h]

/-- An execution of a base instruction: I is kept or set by ANNN, and timers and memory are kept. -/
theorem exec_base {i : Instr} {s t : State} (hbase : i.isFullSet = false) (h : exec i s = .next t) :
    (t.i = s.i ∨ t.i.toNat ≤ 0xFFF) ∧ t.dt = s.dt ∧ t.st = s.st ∧ t.mem = s.mem := by
  have hmem : t.mem = s.mem := (exec_memory h).resolve_right (by simp [hbase])
  obtain ⟨hdt, hst⟩ := exec_timers h
  refine ⟨?_, ?_, ?_, hmem⟩
  · obtain hkept | ⟨nnn, rfl⟩ | ⟨x, rfl⟩ | ⟨x, rfl⟩ := exec_i h
    · exact .inl hkept
    · cases h
      exact .inr (addressOperand_le nnn)
    · cases hbase
    · cases hbase
  · obtain hkept | ⟨x, rfl, -⟩ := hdt
    · exact hkept
    · cases hbase
  · obtain hkept | ⟨x, rfl, -⟩ := hst
    · exact hkept
    · cases hbase

theorem baseReachable_of_exec {i : Instr} {s t : State}
    (hd : decode s.params.fullSet s.fetchWord = .ok i) (h : exec i s = .next t)
    (hs : s.BaseReachable) : t.BaseReachable := by
  obtain ⟨hfs, hi, hdt, hst, hlow⟩ := hs
  rw [hfs] at hd
  obtain ⟨hi', hdt', hst', hmem⟩ := exec_base (isFullSet_of_decode_base hd) h
  obtain ⟨-, hparams, -⟩ := exec_keeps_inputs h
  unfold State.BaseReachable State.readByte
  rw [hparams, hdt', hst', hmem]
  exact ⟨hfs, hi'.elim (fun hkept => hkept ▸ hi) id, hdt, hst, hlow⟩

theorem baseReachable_of_step {s t : State} (hs : s.BaseReachable) (h : step s = .next t) :
    t.BaseReachable := by
  refine step_keeps (fun u r hu => ?_) (fun _ => id) (fun _ => id)
    (fun _ _ _ hd hexec => baseReachable_of_exec hd hexec) hs h
  obtain ⟨hfs, hi, hdt, hst, hlow⟩ := hu
  exact ⟨by simpa using hfs, by simpa using hi, State.finish_dt_of_zero hdt r,
    State.finish_st_of_zero hst r, by simpa using hlow⟩

theorem baseReachable_of_transact {tr : Transaction} {s t : State} {a : Response}
    (hs : s.BaseReachable) (h : transact tr s = .next (t, a)) : t.BaseReachable := by
  refine transact_keeps (fun hs => ⟨hs.1, by simp, rfl, rfl, fun _ _ => rfl⟩)
    (fun bytes _ hs => ?_) (fun _ => id) (fun _ _ => baseReachable_of_step) (fun _ => id) id hs h
  obtain ⟨hfs, hi, hdt, hst, hlow⟩ := hs
  refine ⟨hfs, hi, hdt, hst, fun b hb => ?_⟩
  rw [State.writeBytes_readByte, if_neg (by omega)]
  exact hlow b hb

theorem baseReachable_of_runTransactions {trs : List Transaction} {s t : State}
    (hs : s.BaseReachable) (h : runTransactions trs s = .next t) : t.BaseReachable := by
  induction trs generalizing s with
  | nil =>
    cases h
    exact hs
  | cons tr trs ih =>
    unfold runTransactions at h
    split at h
    · next p hp => exact ih (baseReachable_of_transact hs hp) h
    · cases h
    · cases h

end Machine

open Machine

/-- Settles O53: an execution writes memory only inside the address space, LOAD too, and RESET lists
no cell. -/
theorem stepKeepsMemoryCanonical : Obligations.StepKeepsMemoryCanonical :=
  ⟨fun _ _ => memoryCanonical_of_step, fun _ _ _ _ =>
    transact_keeps (fun _ => Memory.wf_nil _)
      (fun _ hfits hs => Memory.wf_writeList _ hs (Nat.add_le_add_left hfits 0x200))
      (fun _ => id) (fun _ _ => memoryCanonical_of_step) (fun _ => id) id⟩

/-- Settles O54: a push fills the lowest free slot and a pop zeroes the slot it frees. -/
theorem stepKeepsFreeSlotsZero : Obligations.StepKeepsFreeSlotsZero :=
  ⟨fun _ _ => freeSlotsZero_of_step, fun _ _ _ _ =>
    transact_keeps (fun _ _ _ => Vector.getElem_replicate _) (fun _ _ => id)
      (fun _ => id) (fun _ _ => freeSlotsZero_of_step) (fun _ => id) id⟩

/-- Settles O55: an instruction is fetched below 0x1000 and moves PC by at most 4, jumps to at most
0xFFF + 0xFF, or pops a stored address. -/
theorem stepKeepsPcBounded : Obligations.StepKeepsPcBounded :=
  ⟨fun _ _ => pcBounded_of_step, fun _ _ _ _ =>
    transact_keeps (fun _ => ⟨by simp, fun _ => by simp⟩)
      (fun _ _ => id) (fun _ => id) (fun _ _ => pcBounded_of_step) (fun _ => id) id⟩

/-- Settles O56: the base instructions write no timer and no memory and set I from 12 bits, and a
run keeps what each of its transactions keeps. -/
theorem baseConfigurationKeepsItsInvariant : Obligations.BaseConfigurationKeepsItsInvariant :=
  ⟨fun _ _ _ _ => baseReachable_of_transact, fun _ _ _ => baseReachable_of_runTransactions⟩

/-- Settles O57: the fields of `State.reset` are evaluated. -/
theorem resetMeetsTheInvariants : Obligations.ResetMeetsTheInvariants :=
  ⟨Memory.wf_nil _, fun _ _ => Vector.getElem_replicate _,
    ⟨by decide, fun _ => by simp [State.reset]⟩, ⟨rfl, by decide, rfl, rfl, fun _ _ => rfl⟩, rfl⟩

end Sys2Proof
end


section
/-! PROOFS. The STEP (40_cycle.md R100-R109, 60_exceptions.md): what each of its ways answers, the
result record, the fatal conditions, and which instruction may change which part. -/

namespace Sys2Proof

namespace Machine

/-! ## The result record -/

/-- A running block answers its report and the tone of the tick. -/
theorem finish_out_of_running {s : State} (h : s.status = .running) (r : Option Report) :
    (s.finish r).out = ⟨s.tone, r, none⟩ := by
  rw [finish_of_running h]
  rfl

/-- A halted block answers its kind and nothing else. -/
theorem finish_out_of_halted {s : State} {k : FatalKind} (h : s.status = .halted k)
    (r : Option Report) : (s.finish r).out = ⟨false, none, some k⟩ := by
  rw [finish_of_halted h]
  rfl

theorem finish_out_fatal_iff (s : State) (r : Option Report) (k : FatalKind) :
    (s.finish r).out.fatal = some k ↔ s.status = .halted k := by
  cases h : s.status with
  | running => simp [finish_out_of_running h]
  | halted k' => simp [finish_out_of_halted h]

/-- The record never holds a report and a fatal kind at once. -/
theorem finish_out_exclusive (s : State) (r : Option Report) :
    (s.finish r).out.report = none ∨ (s.finish r).out.fatal = none := by
  cases h : s.status with
  | running => exact .inr (by rw [finish_out_of_running h])
  | halted k => exact .inl (by rw [finish_out_of_halted h])

theorem finish_none_report (s : State) : (s.finish none).out.report = none := by
  cases h : s.status with
  | running => rw [finish_out_of_running h]
  | halted k => rw [finish_out_of_halted h]

theorem tone_eq (s : State) : s.tone = decide (s.st.toNat > 0) := by
  simp [State.tone, Nat.pos_iff_ne_zero, ← BitVec.toNat_inj]

theorem finish_tone_of_halted {s : State} {r : Option Report} {k : FatalKind}
    (h : (s.finish r).status = .halted k) : (s.finish r).out.tone = false := by
  rw [finish_out_of_halted (s.finish_status r ▸ h)]

/-- Every way of a STEP ends with the record of that end. -/
theorem exists_finish_of_step {s t : State} (h : step s = .next t) :
    ∃ (u : State) (r : Option Report), t = u.finish r := by
  obtain ⟨-, -, rfl⟩ | ⟨-, -, rfl⟩ | ⟨-, -, -, -, rfl⟩ | ⟨-, -, -, u, -, -, rfl⟩ := step_cases h <;>
    exact ⟨_, _, rfl⟩

/-- The report of a STEP is that of the UNKNOWN word it skipped (R231). -/
theorem step_report_iff {s t : State} (h : step s = .next t) (r : Report) :
    t.out.report = some r ↔ s.status = .running ∧ s.pc.toNat + 1 < 4096 ∧
      decode s.params.fullSet s.fetchWord = .error (.unknownOpcode s.fetchWord) ∧
      r = { opcode := s.fetchWord, pc := s.pc } := by
  obtain ⟨k, hk, rfl⟩ | ⟨hs, hb, rfl⟩ | ⟨hs, hb, w, hw, rfl⟩ | ⟨hs, hb, i, u, hi, hu, rfl⟩ :=
    step_cases h
  · simp [finish_none_report, hk]
  · simp [finish_none_report, Nat.not_lt.mpr (s.fetchOutOfBounds_iff.mp hb)]
  · obtain rfl := decode_error_word hw
    have hrun : s.skipUnknown.status = .running := hs
    simp [finish_out_of_running hrun, hs, s.fetchInBounds_iff.mp hb, hw, eq_comm]
  · simp [finish_none_report, hi]

/-! ## The instruction of each fatal kind -/

theorem fatalCondition_ne_fetch (i : Instr) (s : State) :
    fatalCondition i s ≠ some .instructionFetchOutOfBounds := by
  cases i <;> simp [fatalCondition]

theorem fatalCondition_eq_stackOverflow_iff (i : Instr) (s : State) :
    fatalCondition i s = some .stackOverflow ↔ s.sp.val = 16 ∧ ∃ nnn, i = .call nnn := by
  cases i <;> simp [fatalCondition]

theorem fatalCondition_eq_stackUnderflow_iff (i : Instr) (s : State) :
    fatalCondition i s = some .stackUnderflow ↔ s.sp.val = 0 ∧ i = .ret := by
  cases i <;> simp [fatalCondition]

theorem fatalCondition_eq_dataAccess_iff (i : Instr) (s : State) :
    fatalCondition i s = some .dataAccessOutOfBounds ↔
      (∃ x y n, i = .drw x y n ∧ n.val > 0 ∧ s.i.toNat + n.val - 1 > 0xFFF) ∨
      (∃ x, i = .ldBVx x ∧ s.i.toNat + 2 > 0xFFF) ∨
      (∃ x, i = .storeRegs x ∧ s.i.toNat + x.val > 0xFFF) ∨
      (∃ x, i = .loadRegs x ∧ s.i.toNat + x.val > 0xFFF) := by
  cases i <;> simp [fatalCondition]
  case drw | ldBVx => omega

/-! ## The halting STEP -/

/-- A running block halts on the fetch bound, or on the fatal condition of the decoded instruction.
-/
theorem step_halts_iff {s t : State} (hs : s.status = .running) (h : step s = .next t)
    (k : FatalKind) : t.status = .halted k ↔
      (s.pc.toNat + 1 ≥ 4096 ∧ k = .instructionFetchOutOfBounds) ∨
      (s.pc.toNat + 1 < 4096 ∧ ∃ i, decode s.params.fullSet s.fetchWord = .ok i ∧
        fatalCondition i s = some k) := by
  obtain ⟨k', hk', -⟩ | ⟨-, hb, rfl⟩ | ⟨-, hb, w, hw, rfl⟩ | ⟨-, hb, i, u, hi, hu, rfl⟩ :=
    step_cases h
  · rw [hs] at hk'
    cases hk'
  · have hpc := s.fetchOutOfBounds_iff.mp hb
    simp [hpc, Nat.not_lt.mpr hpc, eq_comm]
  · have hpc := s.fetchInBounds_iff.mp hb
    simp [hw, hs, State.skipUnknown, Nat.not_le.mpr hpc]
  · have hpc := s.fetchInBounds_iff.mp hb
    simp [hi, exec_halts_iff hs hu, hpc, Nat.not_le.mpr hpc]

/-- A running block that halts has done nothing but raise its fatal condition. -/
theorem step_eq_raiseFatal_of_halts {s t : State} {k : FatalKind} (hs : s.status = .running)
    (h : step s = .next t) (ht : t.status = .halted k) : t = (s.raiseFatal k).finish none := by
  obtain ⟨hpc, rfl⟩ | ⟨hpc, i, hi, hk⟩ := (step_halts_iff hs h k).mp ht
  · exact Host.Outcome.next.inj (h.symm.trans (step_of_fetchOutOfBounds hs hpc))
  · rw [step_of_decoded hs hpc hi, exec_of_fatalCondition hk] at h
    exact (Host.Outcome.next.inj h).symm

/-- Past the fetch bound the kinds are those of the decoded instruction. -/
theorem step_halts_iff_of_ne_fetch {s t : State} {k : FatalKind} (hs : s.status = .running)
    (h : step s = .next t) (hk : k ≠ .instructionFetchOutOfBounds) : t.status = .halted k ↔
      s.pc.toNat + 1 < 4096 ∧ ∃ i, decode s.params.fullSet s.fetchWord = .ok i ∧
        fatalCondition i s = some k := by
  simp [step_halts_iff hs h, hk]

theorem UnchangedBut.raiseFatal_finish (s : State) (k : FatalKind) (r : Option Report) :
    UnchangedBut [.status, .out, .randInput] s ((s.raiseFatal k).finish r) :=
  ((UnchangedBut.refl _ s).trans (UnchangedBut.raiseFatal s k) (by simp)).trans
    (UnchangedBut.finish_of_halted (s.raiseFatal_status k) r) (by simp)

/-! ## The completed STEP -/

/-- The end of a running STEP counts both timers down and samples the tone before that (R245, R246).
-/
theorem finish_ticks {s : State} (h : s.status = .running) (r : Option Report) :
    (s.finish r).dt.toNat = s.dt.toNat - 1 ∧ (s.finish r).st.toNat = s.st.toNat - 1 ∧
      (s.finish r).out.tone = decide (s.st.toNat > 0) := by
  rw [finish_of_running h]
  simp [tone_eq]

/-- A running block that runs on has executed its instruction, or skipped an UNKNOWN word, and then
ticked once. -/
theorem step_completed {s t : State} (hs : s.status = .running) (h : step s = .next t)
    (ht : t.status = .running) : ∃ u, ((∃ w, decode s.params.fullSet s.fetchWord = .error w ∧
        u = s.skipUnknown) ∨
      ∃ i, decode s.params.fullSet s.fetchWord = .ok i ∧ exec i s = .next u) ∧
      t.dt.toNat = u.dt.toNat - 1 ∧ t.st.toNat = u.st.toNat - 1 ∧
      t.out.tone = decide (u.st.toNat > 0) := by
  obtain ⟨k', hk', -⟩ | ⟨-, -, rfl⟩ | ⟨-, -, w, hw, rfl⟩ | ⟨-, -, i, u, hi, hu, rfl⟩ := step_cases h
  · rw [hs] at hk'
    cases hk'
  · simp at ht
  · exact ⟨s.skipUnknown, .inl ⟨_, hw, rfl⟩, finish_ticks (s := s.skipUnknown) hs _⟩
  · exact ⟨u, .inr ⟨i, hi, hu⟩, finish_ticks (by simpa using ht) none⟩

/-- What an execution leaves in DT: Vx for FX15 and the old value otherwise. -/
theorem dt_of_exec {i : Instr} {s u : State} (h : exec i s = .next u) :
    (∀ x, i = .ldDtVx x → u.dt = s.V x) ∧ ((∀ x, i ≠ .ldDtVx x) → u.dt = s.dt) := by
  refine ⟨fun x hx => ?_, fun hne => ?_⟩
  · subst hx
    cases h
    rfl
  · exact (exec_timers h).1.resolve_right fun ⟨x, hx, _⟩ => hne x hx

/-- What an execution leaves in ST: Vx for FX18 and the old value otherwise. -/
theorem st_of_exec {i : Instr} {s u : State} (h : exec i s = .next u) :
    (∀ x, i = .ldStVx x → u.st = s.V x) ∧ ((∀ x, i ≠ .ldStVx x) → u.st = s.st) := by
  refine ⟨fun x hx => ?_, fun hne => ?_⟩
  · subst hx
    cases h
    rfl
  · exact (exec_timers h).2.resolve_right fun ⟨x, hx, _⟩ => hne x hx

/-- In the base configuration no instruction writes a timer, so a completed STEP counts both down.
-/
theorem step_base_timers {s t : State} (hfs : s.params.fullSet = false) (hs : s.status = .running)
    (h : step s = .next t) (ht : t.status = .running) :
    t.dt.toNat = s.dt.toNat - 1 ∧ t.st.toNat = s.st.toNat - 1 := by
  obtain ⟨u, ⟨w, -, rfl⟩ | ⟨i, hi, hu⟩, hdt, hst, -⟩ := step_completed hs h ht
  · exact ⟨hdt, hst⟩
  · rw [hfs] at hi
    obtain ⟨-, hdt', hst', -⟩ := exec_base (isFullSet_of_decode_base hi) hu
    exact ⟨hdt' ▸ hdt, hst' ▸ hst⟩

/-! ## Runs of STEPs -/

/-- A run that completes is one completed step and a run of the rest. -/
theorem run_succ {M : Host.Core} {n : Nat} {s t : M.State} (h : M.run (n + 1) s = .next t) :
    ∃ u, M.step s = .next u ∧ M.run n u = .next t := by
  unfold Host.Core.run at h
  split at h
  · next u hu => exact ⟨u, hu, h⟩
  · cases h
  · cases h

theorem step_keeps_params {s t : State} (h : step s = .next t) : t.params = s.params :=
  step_keeps (P := fun u => u.params = s.params) (fun _ _ hu => by simpa using hu) (fun _ => id)
    (fun _ => id) (fun _ _ _ _ hexec _ => (exec_keeps_inputs hexec).2.1) rfl h

/-- A halted block stays halted through a run of STEPs (R101). -/
theorem run_of_halted {n : Nat} {s t : State} {k : FatalKind} (hs : s.status = .halted k)
    (h : Sys2Proof.core.run n s = .next t) : t.status = .halted k := by
  induction n generalizing s with
  | zero =>
    cases h
    exact hs
  | succ n ih =>
    obtain ⟨u, hu, hrun⟩ := run_succ h
    cases (step_of_halted hs).symm.trans hu
    exact ih (by simpa using hs) hrun

/-- A run that ends in a running state ran from its first state on. -/
theorem running_of_run {n : Nat} {s t : State} (h : Sys2Proof.core.run n s = .next t)
    (ht : t.status = .running) : s.status = .running := by
  cases hs : s.status with
  | running => rfl
  | halted k => cases ht.symm.trans (run_of_halted hs h)

theorem run_base_timers {n : Nat} {s t : State} (hfs : s.params.fullSet = false)
    (h : Sys2Proof.core.run n s = .next t) (ht : t.status = .running) :
    t.dt.toNat = s.dt.toNat - n ∧ t.st.toNat = s.st.toNat - n := by
  induction n generalizing s with
  | zero =>
    cases h
    exact ⟨rfl, rfl⟩
  | succ n ih =>
    obtain ⟨u, hu, hrun⟩ := run_succ h
    obtain ⟨hdt, hst⟩ := ih (step_keeps_params hu ▸ hfs) hrun
    obtain ⟨hdt', hst'⟩ := step_base_timers hfs (running_of_run h ht) hu (running_of_run hrun ht)
    rw [hdt, hst, hdt', hst']
    omega

/-! ## What the other transactions do to STATUS -/

theorem transact_step {r : Byte} {s t : State} {a : Response}
    (h : transact (.step r) s = .next (t, a)) : step (s.supplyRand8 r) = .next t := by
  simpa using transact_cases h

theorem State.load_status (s : State) (bytes : List Byte) : (s.load bytes).status = s.status := by
  unfold State.load
  split <;> rfl

theorem State.setKey_status (s : State) (k : Nat) (b : Bool) :
    (s.setKey k b).status = s.status := by
  unfold State.setKey
  split <;> rfl

theorem status_of_transact {tr : Transaction} {s t : State} {a : Response} (hreset : tr ≠ .reset)
    (hstep : ∀ r, tr ≠ .step r) (h : transact tr s = .next (t, a)) : t.status = s.status := by
  obtain ⟨htr, -⟩ | ⟨bytes, -, rfl⟩ | ⟨r, htr, -⟩ | ⟨k, b, -, rfl⟩ | ⟨-, rfl⟩ | ⟨-, rfl⟩ :=
    transact_cases h
  · exact absurd htr hreset
  · exact s.load_status bytes
  · exact absurd htr (hstep r)
  · exact s.setKey_status k b
  · rfl
  · rfl

/-! ## The parts that only some instructions write -/

/-- What the end of a STEP, a fatal condition and a skip keep is kept by the STEP unless it executed
an instruction that may not keep it. -/
theorem step_keeps_or_executed {Q : State → Prop} {W : Instr → Prop} {s t : State}
    (hfinish : ∀ u r, Q u → Q (u.finish r)) (hfatal : ∀ k, Q s → Q (s.raiseFatal k))
    (hskip : Q s → Q s.skipUnknown) (hexec : ∀ i u, exec i s = .next u → Q u ∨ W i)
    (hs : Q s) (h : step s = .next t) :
    Q t ∨ ∃ i, decode s.params.fullSet s.fetchWord = .ok i ∧ W i :=
  step_keeps (P := fun u => Q u ∨ ∃ i, decode s.params.fullSet s.fetchWord = .ok i ∧ W i)
    (fun u r => Or.imp_left (hfinish u r)) (fun k => Or.imp_left (hfatal k))
    (fun _ => Or.imp_left hskip)
    (fun i u _ hi hu _ => (hexec i u hu).imp_right fun hw => ⟨i, hi, hw⟩) (.inl hs) h

theorem step_stack {s t : State} (h : step s = .next t) : (t.stack = s.stack ∧ t.sp = s.sp) ∨
    ∃ i, decode s.params.fullSet s.fetchWord = .ok i ∧ (i = .ret ∨ ∃ nnn, i = .call nnn) := by
  refine step_keeps_or_executed (Q := fun u => u.stack = s.stack ∧ u.sp = s.sp)
    (fun u r hu => by simpa using hu) (fun _ => id) id (fun i u hu => ?_) ⟨rfl, rfl⟩ h
  obtain hkept | ⟨nnn, hcall, -⟩ | ⟨hret, -⟩ := exec_stack hu
  · exact .inl hkept
  · exact .inr (.inr ⟨nnn, hcall⟩)
  · exact .inr (.inl hret)

theorem step_i {s t : State} (h : step s = .next t) : t.i = s.i ∨
    ∃ i, decode s.params.fullSet s.fetchWord = .ok i ∧
      ((∃ nnn, i = .ldI nnn) ∨ (∃ x, i = .addIVx x) ∨ (∃ x, i = .ldFVx x)) :=
  step_keeps_or_executed (Q := fun u => u.i = s.i) (fun u r hu => by simpa using hu) (fun _ => id)
    id (fun _ _ => exec_i) rfl h

theorem step_framebuffer {s t : State} (h : step s = .next t) :
    (t.fb = s.fb ∧ t.drawPending = s.drawPending) ∨
    (t.drawPending = true ∧ ∃ i, decode s.params.fullSet s.fetchWord = .ok i ∧
      (i = .cls ∨ ∃ x y n, i = .drw x y n)) := by
  refine step_keeps (P := fun u => (u.fb = s.fb ∧ u.drawPending = s.drawPending) ∨
      (u.drawPending = true ∧ ∃ i, decode s.params.fullSet s.fetchWord = .ok i ∧
        (i = .cls ∨ ∃ x y n, i = .drw x y n)))
    (fun u r hu => by simpa using hu) (fun _ => id) (fun _ => id) (fun i u _ hi hu _ => ?_)
    (.inl ⟨rfl, rfl⟩) h
  exact (exec_framebuffer hu).imp_right fun ⟨hset, hwriter⟩ => ⟨hset, i, hi, hwriter⟩

/-- In the base configuration a STEP leaves every byte of memory (20_memory.md R62). -/
theorem step_base_readByte {s t : State} (hfs : s.params.fullSet = false) (h : step s = .next t)
    (a : Nat) : t.readByte a = s.readByte a := by
  refine step_keeps (P := fun u => u.readByte a = s.readByte a) (fun u r hu => by simpa using hu)
    (fun _ => id) (fun _ => id) (fun i u _ hi hu _ => ?_) rfl h
  rw [hfs] at hi
  obtain ⟨-, -, -, hmem⟩ := exec_base (isFullSet_of_decode_base hi) hu
  obtain ⟨-, hparams, -⟩ := exec_keeps_inputs hu
  rw [State.readByte, hmem, hparams]
  rfl

theorem step_keeps_keys {s t : State} (h : step s = .next t) : t.keys = s.keys :=
  step_keeps (P := fun u => u.keys = s.keys) (fun _ _ hu => by simpa using hu) (fun _ => id)
    (fun _ => id) (fun _ _ _ _ hexec _ => (exec_keeps_inputs hexec).1) rfl h

/-! ## Writers of VF -/

/-- An execution whose destination is one register leaves VF, or VF is the destination. -/
theorem vf_setV (s : State) (x : VReg) (b : Byte) :
    x = vf ∨ (s.setV x b).advance.V 15 = s.V 15 := by
  by_cases hx : x = 15
  · exact .inl hx
  · exact .inr (by simp [Ne.symm hx])

/-- VF: kept, or written as the flag or as a destination register (10_state.md R21). -/
theorem exec_vf {i : Instr} {s t : State} (h : exec i s = .next t) :
    t.V 15 = s.V 15 ∨ Instr.WritesFlag i ∨ Instr.HasDestVf i := by
  cases i
  case addReg x y | sub x y | shr x y | subn x y | shl x y =>
    exact .inr (.inl (.inl ⟨x, y, by simp⟩))
  case drw x y n => exact .inr (.inl (.inr ⟨x, y, n, rfl⟩))
  case ldImm x kk | addImm x kk | rnd x kk =>
    cases h
    obtain rfl | hkept := vf_setV s x _
    · exact .inr (.inr (.inl ⟨kk, by simp⟩))
    · exact .inl hkept
  case ldReg x y | orReg x y | andReg x y | xorReg x y =>
    cases h
    obtain rfl | hkept := vf_setV s x _
    · exact .inr (.inr (.inr (.inl ⟨y, by simp⟩)))
    · exact .inl hkept
  case ldVxDt x =>
    cases h
    obtain rfl | hkept := vf_setV s x _
    · exact .inr (.inr (.inr (.inr (.inl rfl))))
    · exact .inl hkept
  case ldVxK x =>
    simp only [exec, execLdVxK] at h
    split at h <;> cases h
    · obtain rfl | hkept := vf_setV s x _
      · exact .inr (.inr (.inr (.inr (.inr (.inl rfl)))))
      · exact .inl hkept
    · exact .inl rfl
  case loadRegs x =>
    by_cases hx : x = 15
    · exact .inr (.inr (.inr (.inr (.inr (.inr (congrArg _ hx))))))
    · have hlt : ¬ 15 ≤ x := fun hle => hx (Fin.last_le_iff.mp hle)
      rw [exec_loadRegs] at h
      split at h <;> cases h
      · exact .inl rfl
      · exact .inl ((State.loadRegsUpTo_V s x 15).trans (if_neg hlt))
  case ret => rw [exec_ret] at h; split at h <;> cases h <;> simp
  case call nnn => rw [exec_call] at h; split at h <;> cases h <;> simp
  case ldBVx x => rw [exec_ldBVx] at h; split at h <;> cases h <;> simp
  case storeRegs x => rw [exec_storeRegs] at h; split at h <;> cases h <;> simp
  all_goals cases h; exact .inl rfl

end Machine

open Machine

/-- Settles O36: the STEP is the execution and its completion, which ticks a running block only. -/
theorem stepRunsTheDecodedInstruction : Obligations.StepRunsTheDecodedInstruction := by
  intro s i hs hpc hi
  rw [step_of_decoded hs hpc hi]
  refine ⟨fun t ht hrun => ?_, fun t k ht hhalt => ?_, fun r hr => ?_, fun r hr => ?_⟩
  · rw [ht, ← countdown_eq, ← countdown_eq]
    exact congrArg Host.Outcome.next (finish_of_running hrun none)
  · rw [ht]
    exact congrArg Host.Outcome.next (finish_of_halted hhalt none)
  · rw [hr]
    rfl
  · rw [hr]
    rfl

/-- Settles O37: the skip is one advance of PC, and the block still runs, so it ticks and reports.
-/
theorem unknownWordIsReportedAndSkipped : Obligations.UnknownWordIsReportedAndSkipped := by
  intro s w hs hpc hw
  obtain rfl := decode_error_word hw
  have hframe : UnchangedBut [.pc, .dt, .st, .out, .randInput] s s.skipUnknown :=
    (UnchangedBut.refl _ s).advance (by simp)
  have hrun : s.skipUnknown.status = .running := hs
  obtain ⟨hdt, hst, -⟩ := finish_ticks hrun (some ⟨s.fetchWord, s.pc⟩)
  refine ⟨_, step_of_unknown hs hpc hw, rfl, by simp, hdt, hst, ?_,
    hframe.trans (UnchangedBut.finish _ _) (by simp)⟩
  rw [finish_out_of_running hrun, tone_eq]
  rfl

/-- Settles O38: a STEP of a halted block is its end alone, and a halted block does not tick. -/
theorem haltedStepChangesNothing : Obligations.HaltedStepChangesNothing := fun _ _ hs =>
  ⟨_, step_of_halted hs, finish_out_of_halted hs none, UnchangedBut.finish_of_halted hs none⟩

/-- Settles O39: the bound is checked first and raises its fatal condition. -/
theorem fetchPastMemoryHalts : Obligations.FetchPastMemoryHalts := fun s hs hpc =>
  ⟨_, step_of_fetchOutOfBounds hs hpc, by simp, finish_out_of_halted (s.raiseFatal_status _) none,
    UnchangedBut.raiseFatal_finish s _ none⟩

/-- Settles O40: every execution answers a next state, and so do the other ways of a STEP. -/
theorem everyStepAnswersANextState : Obligations.EveryStepAnswersANextState := by
  intro s
  cases hs : s.status with
  | halted k => exact ⟨_, step_of_halted hs⟩
  | running =>
    rcases Nat.lt_or_ge (s.pc.toNat + 1) 4096 with hpc | hpc
    · cases hd : decode s.params.fullSet s.fetchWord with
      | ok i =>
        obtain ⟨u, hu⟩ := exec_answers i s
        exact ⟨u.finish none, by rw [step_of_decoded hs hpc hd, hu]; rfl⟩
      | error e => exact ⟨_, step_of_unknown (w := e.1) hs hpc hd⟩
    · exact ⟨_, step_of_fetchOutOfBounds hs hpc⟩

/-- Settles O41: the halted state is the old one with its fatal condition raised. -/
theorem fatalStepIsPrecise : Obligations.FatalStepIsPrecise := by
  intro s t k hs h ht
  rw [step_eq_raiseFatal_of_halts hs h ht]
  exact ⟨finish_out_of_halted (s.raiseFatal_status k) none, UnchangedBut.raiseFatal_finish s k none⟩

/-- Settles O42: a running block halts on the fetch bound or on the fatal condition of its
instruction, and each kind belongs to its own instructions. -/
theorem fatalConditionsAreExactly : Obligations.FatalConditionsAreExactly := by
  intro s t hs h
  refine ⟨?_, ?_, ?_, ?_⟩
  · simp [step_halts_iff hs h, fatalCondition_ne_fetch]
  · simp only [step_halts_iff_of_ne_fetch hs h (k := .stackOverflow) (by decide),
      fatalCondition_eq_stackOverflow_iff]
    exact ⟨fun ⟨hpc, i, hi, hsp, nnn, hcall⟩ => ⟨hpc, hsp, nnn, hcall ▸ hi⟩,
      fun ⟨hpc, hsp, nnn, hi⟩ => ⟨hpc, _, hi, hsp, nnn, rfl⟩⟩
  · simp only [step_halts_iff_of_ne_fetch hs h (k := .stackUnderflow) (by decide),
      fatalCondition_eq_stackUnderflow_iff]
    exact ⟨fun ⟨hpc, i, hi, hsp, hret⟩ => ⟨hpc, hsp, hret ▸ hi⟩,
      fun ⟨hpc, hsp, hi⟩ => ⟨hpc, _, hi, hsp, rfl⟩⟩
  · simp only [step_halts_iff_of_ne_fetch hs h (k := .dataAccessOutOfBounds) (by decide),
      fatalCondition_eq_dataAccess_iff]
    refine and_congr_right fun _ => ⟨?_, ?_⟩
    · rintro ⟨i, hi, ⟨x, y, n, rfl, hn⟩ | ⟨x, rfl, hx⟩ | ⟨x, rfl, hx⟩ | ⟨x, rfl, hx⟩⟩
      · exact .inl ⟨x, y, n, hi, hn⟩
      · exact .inr (.inl ⟨x, hi, hx⟩)
      · exact .inr (.inr (.inl ⟨x, hi, hx⟩))
      · exact .inr (.inr (.inr ⟨x, hi, hx⟩))
    · rintro (⟨x, y, n, hi, hn⟩ | ⟨x, hi, hx⟩ | ⟨x, hi, hx⟩ | ⟨x, hi, hx⟩)
      · exact ⟨_, hi, .inl ⟨x, y, n, rfl, hn⟩⟩
      · exact ⟨_, hi, .inr (.inl ⟨x, rfl, hx⟩)⟩
      · exact ⟨_, hi, .inr (.inr (.inl ⟨x, rfl, hx⟩))⟩
      · exact ⟨_, hi, .inr (.inr (.inr ⟨x, rfl, hx⟩))⟩

/-- Settles O43: the record is that of the STEP's end, which tells a running block from a halted
one. -/
theorem stepResultRecord : Obligations.StepResultRecord := by
  intro s t h
  refine ⟨?_, step_report_iff h, ?_⟩ <;> obtain ⟨u, r, rfl⟩ := exists_finish_of_step h
  · exact fun k => (finish_out_fatal_iff u r k).trans (by rw [State.finish_status])
  · exact ⟨finish_out_exclusive u r, fun _ => finish_tone_of_halted⟩

/-- Settles O44: the tick counts down what the execution left, and an UNKNOWN word leaves the old
DT. -/
theorem delayTimerTicks : Obligations.DelayTimerTicks := by
  intro s t hs h ht
  obtain ⟨u, ⟨w, hw, rfl⟩ | ⟨i, hi, hu⟩, hdt, -⟩ := step_completed hs h ht
  · simp [hw, hdt]
  · obtain ⟨hwritten, hkept⟩ := dt_of_exec hu
    rw [hi, hdt]
    exact ⟨fun x hx => by rw [hwritten x (Except.ok.inj hx)],
      fun hne => by rw [hkept fun x hx => hne x (congrArg _ hx)]⟩

/-- Settles O45: the tick counts down what the execution left, and the tone is sampled before it. -/
theorem soundTimerTicksAndSounds : Obligations.SoundTimerTicksAndSounds := by
  intro s t hs h ht
  obtain ⟨u, ⟨w, hw, rfl⟩ | ⟨i, hi, hu⟩, -, hst, htone⟩ := step_completed hs h ht
  · simp [hw, hst, htone]
  · obtain ⟨hwritten, hkept⟩ := st_of_exec hu
    rw [hi, hst, htone]
    exact ⟨fun x hx => by rw [hwritten x (Except.ok.inj hx)]; exact ⟨rfl, rfl⟩,
      fun hne => by rw [hkept fun x hx => hne x (congrArg _ hx)]; exact ⟨rfl, rfl⟩⟩

/-- Settles O46: by induction on the number of steps, each of which ran. -/
theorem timersReachZeroInThatManySteps : Obligations.TimersReachZeroInThatManySteps :=
  fun _ _ _ => run_base_timers

/-- Settles O52: a STEP of a halted block is its end alone, which keeps STATUS. -/
theorem onlyResetLeavesHalted : Obligations.OnlyResetLeavesHalted := by
  refine ⟨fun tr s t a k hs hne h => ?_, fun s t a h => ?_, fun tr s t a => status_of_transact⟩
  · by_cases hstep : ∃ r, tr = .step r
    · obtain ⟨r, rfl⟩ := hstep
      have hs' : (s.supplyRand8 r).status = .halted k := hs
      cases (step_of_halted hs').symm.trans (transact_step h)
      simpa using hs'
    · exact (status_of_transact hne (fun r hr => hstep ⟨r, hr⟩) h).trans hs
  · cases h
    rfl

/-- Settles O58: no execution writes a key or a parameter, and no base instruction writes memory. -/
theorem stepKeepsKeysAndParameters : Obligations.StepKeepsKeysAndParameters :=
  ⟨fun _ _ h => ⟨step_keeps_keys h, step_keeps_params h, fun hfs => step_base_readByte hfs h⟩,
    fun _ s _ _ => transact_keeps (P := fun u => u.params = s.params) (fun _ => rfl) (fun _ _ => id)
      (fun _ => id) (fun _ _ hu hstep => (step_keeps_params hstep).trans hu) (fun _ => id) id rfl⟩

/-- Settles O59: a STEP keeps the part or executed one of its writers. -/
theorem onlyTheirWritersChangeState : Obligations.OnlyTheirWritersChangeState := by
  intro s t h
  refine ⟨fun hne => (step_framebuffer h).resolve_left fun ⟨hfb, hdraw⟩ => ?_,
    fun hne => (step_stack h).resolve_left fun ⟨hstack, hsp⟩ => ?_,
    fun hne => (step_i h).resolve_left hne⟩
  · exact hne.elim (· hfb) (· hdraw)
  · exact hne.elim (· hstack) (· hsp)

/-- Settles O60: a STEP keeps VF or executed an instruction that writes it. -/
theorem vfChangesOnlyByFlagOrDestination : Obligations.VfChangesOnlyByFlagOrDestination :=
  fun s _ h hne => (step_keeps_or_executed (Q := fun u => u.V 15 = s.V 15)
    (fun _ _ hu => by simpa using hu) (fun _ => id) id (fun _ _ => exec_vf) rfl h).resolve_left hne

end Sys2Proof
end


section
/-! PROOFS. Control transfer (41_flow.md R120-R123), the skips on two registers and on a key
(42_skip.md R132, R133, 46_ext_full.md R201, R202) and the random byte (43_load_imm.md R143). -/

namespace Sys2Proof

/-! ## The two words of class 0x0: their instructions have no operand, so they have one word (R89)
-/

theorem decode_ret_iff (fs : Bool) (w : Word) : decode fs w = .ok .ret ↔ w = 0x00EE#16 := by
  constructor
  · exact fun h => (encode_of_decode h).symm
  · rintro rfl
    rfl

theorem decode_cls_iff (fs : Bool) (w : Word) : decode fs w = .ok .cls ↔ w = 0x00E0#16 := by
  constructor
  · exact fun h => (encode_of_decode h).symm
  · rintro rfl
    rfl

namespace Machine

/-- The word at PC, with the byte at the lower address in front (20_memory.md R64). -/
theorem State.fetchWord_toNat (s : State) : s.fetchWord.toNat =
    (s.readByte s.pc.toNat).toNat * 256 + (s.readByte (s.pc.toNat + 1)).toNat :=
  Laws.append_toNat _ _

/-! ## Call and return -/

/-- A return with an occupied slot below SP pops it (R120). -/
theorem exec_ret_spec {s : State} {j : Fin 16} (h : j.val + 1 = s.sp.val) :
    ∃ t, exec .ret s = .next t ∧ t.sp.val = j.val ∧ t.pc = s.stack[j.val] ∧ t.stack[j.val] = 0 ∧
      (∀ k : Fin 16, k ≠ j → t.stack[k.val] = s.stack[k.val]) ∧
      UnchangedBut [.stack, .sp, .pc] s t := by
  have hpos : 0 < s.sp.val := by omega
  have hj : s.sp.val - 1 = j.val := by omega
  have hframe : UnchangedBut [.stack, .sp, .pc] s s.pop :=
    (UnchangedBut.refl _ s).trans (UnchangedBut.pop s) (by simp)
  refine ⟨s.pop.setPc s.top, by rw [exec_ret, if_neg hpos.ne'], ?_, ?_, ?_, fun k hk => ?_,
    hframe.setPc (by simp) _⟩
  · simpa [State.pop_of_pos s hpos] using hj
  · simp [State.top_of_pos s hpos, hj]
  · simp [State.pop_of_pos s hpos, hj]
  · have hval : j.val ≠ k.val := Fin.val_ne_of_ne hk.symm
    simp [State.pop_of_pos s hpos, hj, hval]

/-- A call with a free slot fills it with the address behind the call (R122). -/
theorem exec_call_spec (nnn : Addr12) {s : State} {j : Fin 16} (h : j.val = s.sp.val) :
    ∃ t, exec (.call nnn) s = .next t ∧ t.sp.val = s.sp.val + 1 ∧ t.stack[j.val] = s.pc + 2 ∧
      t.pc.toNat = nnn.toNat ∧ (∀ k : Fin 16, k ≠ j → t.stack[k.val] = s.stack[k.val]) ∧
      UnchangedBut [.stack, .sp, .pc] s t := by
  have hlt : s.sp.val < 16 := h ▸ j.isLt
  have hframe : UnchangedBut [.stack, .sp, .pc] s (s.push (trunc16 (s.pc.toNat + 2))) :=
    (UnchangedBut.refl _ s).trans (UnchangedBut.push s _) (by simp)
  refine ⟨(s.push (trunc16 (s.pc.toNat + 2))).setPc (addressOperand nnn),
    by rw [exec_call, if_neg hlt.ne], ?_, ?_, addressOperand_toNat nnn, fun k hk => ?_,
    hframe.setPc (by simp) _⟩
  · simp [State.push_of_lt s _ hlt]
  · simp [State.push_of_lt s _ hlt, h, trunc16_add]
  · have hval : s.sp.val ≠ k.val := h ▸ Fin.val_ne_of_ne hk.symm
    simp [State.push_of_lt s _ hlt, hval]

/-- The sum of a 12-bit address and a byte fits in PC, so it is not cut (R123). -/
theorem State.offsetAddress_toNat (s : State) (nnn : Addr12) :
    (s.offsetAddress nnn).toNat = nnn.toNat + (s.V 0).toNat := by
  have := nnn.isLt
  have := (s.V 0).isLt
  rw [State.offsetAddress, trunc16, BitVec.toNat_ofNat]
  omega

theorem exec_jpV0 (nnn : Addr12) (s : State) :
    exec (.jpV0 nnn) s = .next (s.setPc (s.offsetAddress nnn)) := rfl

/-! ## Skips and the random byte -/

theorem exec_seReg (x y : VReg) (s : State) :
    exec (.seReg x y) s = .next (s.skipIf (eq8 (s.V x) (s.V y))) := rfl

theorem exec_sneReg (x y : VReg) (s : State) :
    exec (.sneReg x y) s = .next (s.skipIf (!eq8 (s.V x) (s.V y))) := rfl

theorem exec_skp (x : VReg) (s : State) :
    exec (.skp x) s = .next (s.skipIf s.keys[(s.keyIndex x).val]) := rfl

theorem exec_sknp (x : VReg) (s : State) :
    exec (.sknp x) s = .next (s.skipIf !s.keys[(s.keyIndex x).val]) := rfl

theorem exec_rnd (x : VReg) (kk : Byte) (s : State) :
    exec (.rnd x kk) s = .next (s.setV x (s.rand8 &&& kk)).advance := rfl

end Machine

open Machine

/-- Settles O7: a word of two bytes is the first shifted by eight bits plus the second. -/
theorem fetchIsBigEndian : Obligations.FetchIsBigEndian := State.fetchWord_toNat

/-- Settles O8: a return pops the slot below SP, and with SP = 0 it meets its fatal condition. -/
theorem returnPopsThePc : Obligations.ReturnPopsThePc :=
  ⟨decode_ret_iff, fun _ _ => exec_ret_spec, fun s hsp => by rw [exec_ret, if_pos hsp]; rfl⟩

/-- Settles O10: a call fills slot SP, and with SP = 16 it meets its fatal condition. -/
theorem callPushesTheReturnAddress : Obligations.CallPushesTheReturnAddress :=
  ⟨fun _ _ h => decode_of_class_call (fieldClass_of_mask h), fun nnn _ _ => exec_call_spec nnn,
    fun nnn s hsp => by rw [exec_call, if_pos hsp]; rfl⟩

/-- Settles O11: the execution is one write of PC, and the sum fits in 16 bits. -/
theorem jumpOffsetAddsV0 : Obligations.JumpOffsetAddsV0 :=
  ⟨fun _ _ h => decode_of_class_jpV0 (fieldClass_of_mask h),
    fun nnn s => ⟨_, exec_jpV0 nnn s, s.offsetAddress_toNat nnn,
      (UnchangedBut.refl [.pc] s).setPc (by simp) _⟩⟩

/-- Settles O12: the call has raised SP over the slot it filled, which is the one the return pops.
-/
theorem callThenReturnRestores : Obligations.CallThenReturnRestores := by
  intro nnn s t t' j hj hcall hsp hslot
  obtain ⟨t₀, hcall₀, hsp₀, hslot₀, -⟩ := exec_call_spec nnn hj
  cases hcall₀.symm.trans hcall
  obtain ⟨u, hret, hspu, hpcu, hzero, -⟩ := exec_ret_spec (s := t') (j := j) (by rw [hsp, hsp₀, hj])
  exact ⟨u, hret, by rw [hpcu, hslot, hslot₀], Fin.ext (hspu.trans hj), hzero⟩

/-- Settles O14: the masks leave the low nibble open, and each execution is a skip whose condition
is the ALU's equality or its negation. -/
theorem skipOnRegisters : Obligations.SkipOnRegisters :=
  ⟨fun _ _ h => decode_of_class_seReg (fieldClass_of_mask h),
    fun _ _ h => decode_of_class_sneReg (fieldClass_of_mask h),
    fun x y s => ⟨exec_skip_spec (exec_seReg x y s) (eq8_eq_true_iff (s.V x) (s.V y)),
      exec_skip_spec (exec_sneReg x y s) (not_eq8_eq_true_iff (s.V x) (s.V y))⟩⟩

/-- Settles O29: the key that the low nibble names is the condition of the skip, or its negation. -/
theorem skipOnKey : Obligations.SkipOnKey := by
  refine ⟨fun _ => decode_skp, fun _ => decode_sknp, fun x s k hk => ?_⟩
  have hkey : s.keyIndex x = k := Fin.ext hk.symm
  subst hkey
  exact ⟨exec_skip_spec (exec_skp x s) Iff.rfl,
    exec_skip_spec (exec_sknp x s) (by rw [Bool.not_eq_true'])⟩

/-- Settles O18: the execution is one write of Vx, and the head of the input is the STEP's byte. -/
theorem randomIsAndedWithKk : Obligations.RandomIsAndedWithKk :=
  ⟨fun _ _ h => decode_of_class_rnd (fieldClass_of_mask h),
    fun x kk s => exec_setV_spec (exec_rnd x kk s), fun _ _ => rfl⟩

end Sys2Proof
end

section
/-! PROOFS. The instructions 8XY4 to 8XYE, which write VF as their flag and then Vx (44_alu.md
R162-R166). -/

namespace Sys2Proof

namespace Machine

/-! ## The ALU's values as numbers (R150-R157) -/

@[simp] theorem sub8_toNat (a b : Byte) : (sub8 a b).toNat = (a.toNat + 256 - b.toNat) % 256 :=
  BitVec.toNat_ofNat _ 8

theorem sub8_self (a : Byte) : sub8 a a = 0 := by
  apply BitVec.eq_of_toNat_eq
  rw [sub8_toNat, Nat.add_sub_cancel_left]
  rfl

theorem shr8_fst_toNat (a : Byte) : (shr8 a).1.toNat = a.toNat / 2 :=
  (BitVec.toNat_ushiftRight a 1).trans (Nat.shiftRight_eq_div_pow _ 1)

theorem shl8_fst_toNat (a : Byte) : (shl8 a).1.toNat = a.toNat * 2 % 256 := BitVec.toNat_ofNat _ 8

theorem flagByte_decide (P : Prop) [Decidable P] : flagByte (decide P) = if P then 1 else 0 := by
  by_cases h : P <;> simp [flagByte, h]

theorem flagByte_toNat (f : Bool) : (flagByte f).toNat = f.toNat := by
  cases f <;> rfl

/-- The flag of a shift right is bit 0. -/
theorem shr8_snd_toNat (a : Byte) : (flagByte (shr8 a).2).toNat = a.toNat % 2 := by
  rw [flagByte_toNat, shr8, BitVec.getLsbD, Nat.testBit_zero, Bool.toNat]
  rcases Nat.mod_two_eq_zero_or_one a.toNat with h | h <;> simp [h]

/-- The bit that a shift left moves out is the topmost one. -/
theorem shl8_snd_eq (a : Byte) : (shl8 a).2 = decide (a.toNat ≥ 128) :=
  (BitVec.msb_eq_getLsbD_last a).symm.trans (BitVec.msb_eq_decide a)

/-- The flag of a shift left is bit 7. -/
theorem shl8_snd_toNat (a : Byte) : (flagByte (shl8 a).2).toNat = a.toNat / 128 := by
  have := a.isLt
  rw [shl8_snd_eq, flagByte_decide]
  split
  · show 1 = a.toNat / 128
    omega
  · show 0 = a.toNat / 128
    omega

/-! ## A flag and then a destination -/

/-- An execution that writes VF as a flag, then Vx, and advances: Vx holds its value, VF the flag
unless it is the destination, PC rises by 2, and nothing else changes (D16). -/
theorem exec_setFlag_setV_spec {i : Instr} {s : State} {f : Bool} {x : VReg} {b : Byte}
    (hexec : exec i s = .next ((s.setFlag f).setV x b).advance) :
    ∃ t, exec i s = .next t ∧ t.V x = b ∧ (x ≠ 15 → t.V 15 = flagByte f) ∧
      RegsUnchangedBut [x, 15] s t ∧ t.pc = s.pc + 2 ∧ UnchangedBut [.v, .pc] s t := by
  have hframe : UnchangedBut [.v, .pc] s ((s.setFlag f).setV x b) :=
    ((UnchangedBut.refl _ s).setFlag (by simp) f).setV (by simp) x b
  refine ⟨_, hexec, by simp, fun hx => by simp [Ne.symm hx], fun j hj => ?_, by simp,
    hframe.advance (by simp)⟩
  obtain ⟨hjx, hj15⟩ : j ≠ x ∧ j ≠ 15 := by simpa using hj
  simp [hjx, hj15]

theorem exec_addReg (x y : VReg) (s : State) : exec (.addReg x y) s =
    .next ((s.setFlag (addc8 (s.V x) (s.V y)).2).setV x (addc8 (s.V x) (s.V y)).1).advance := rfl

/-- The difference of two registers, taken after the not-borrow flag is written to VF (R163, R165).
-/
def State.difference (s : State) (m r : VReg) : Byte :=
  sub8 ((s.setFlag (notBorrow8 (s.V m) (s.V r))).V m) ((s.setFlag (notBorrow8 (s.V m) (s.V r))).V r)

theorem exec_sub (x y : VReg) (s : State) : exec (.sub x y) s =
    .next ((s.setFlag (notBorrow8 (s.V x) (s.V y))).setV x (s.difference x y)).advance := rfl

theorem exec_subn (x y : VReg) (s : State) : exec (.subn x y) s =
    .next ((s.setFlag (notBorrow8 (s.V y) (s.V x))).setV x (s.difference y x)).advance := rfl

theorem exec_shr (x y : VReg) (s : State) : exec (.shr x y) s =
    .next ((s.setFlag (shr8 (s.V x)).2).setV x
      (shr8 ((s.setFlag (shr8 (s.V x)).2).V x)).1).advance := rfl

theorem exec_shl (x y : VReg) (s : State) : exec (.shl x y) s =
    .next ((s.setFlag (shl8 (s.V x)).2).setV x
      (shl8 ((s.setFlag (shl8 (s.V x)).2).V x)).1).advance := rfl

/-- The not-borrow flag as a number (R152). -/
theorem notBorrow8_toNat (a b : Byte) :
    (flagByte (notBorrow8 a b)).toNat = if a.toNat > b.toNat then 1 else 0 := by
  rw [notBorrow8, flagByte_decide]
  split <;> rfl

/-- Two registers other than VF are read as they were. -/
theorem State.difference_toNat (s : State) {m r : VReg} (hm : m ≠ 15) (hr : r ≠ 15) :
    (s.difference m r).toNat = ((s.V m).toNat + 256 - (s.V r).toNat) % 256 := by
  simp [State.difference, hm, hr]

/-- VF as the minuend is read as the flag. -/
theorem State.difference_vf_left_toNat (s : State) {r : VReg} (hr : r ≠ 15) :
    (s.difference 15 r).toNat =
      ((if (s.V 15).toNat > (s.V r).toNat then 1 else 0) + 256 - (s.V r).toNat) % 256 := by
  simp [State.difference, hr, notBorrow8_toNat]

/-- VF as the subtrahend is read as the flag. -/
theorem State.difference_vf_right_toNat (s : State) {m : VReg} (hm : m ≠ 15) :
    (s.difference m 15).toNat =
      ((s.V m).toNat + 256 - (if (s.V m).toNat > (s.V 15).toNat then 1 else 0)) % 256 := by
  simp [State.difference, hm, notBorrow8_toNat]

theorem State.difference_self (s : State) (r : VReg) : s.difference r r = 0 := sub8_self _

end Machine

open Machine

/-- Settles O20: the sum is taken before the flag is written, and it overwrites the flag when X is
F. -/
theorem addSetsTheCarry : Obligations.AddSetsTheCarry := by
  refine ⟨fun _ _ => decode_addReg, fun x y s => ?_⟩
  obtain ⟨t, hexec, hvx, hvf, hframe⟩ := exec_setFlag_setV_spec (exec_addReg x y s)
  exact ⟨t, hexec, hvx ▸ BitVec.toNat_ofNat _ 8, fun hx => (hvf hx).trans (flagByte_decide _),
    hframe⟩

/-- Settles O21: the difference reads VF as the flag where X or Y is F, and a register less itself
is 0. -/
theorem subtractSetsNotBorrow : Obligations.SubtractSetsNotBorrow := by
  refine ⟨fun _ _ => decode_sub, fun x y s => ?_⟩
  obtain ⟨t, hexec, hvx, hvf, hframe⟩ := exec_setFlag_setV_spec (exec_sub x y s)
  refine ⟨t, hexec, fun hx hy => ?_, fun hx hy => ?_, fun hx hy => ?_, fun hx hy => ?_, hframe⟩
  · rw [hvx, hvf hx]
    exact ⟨s.difference_toNat hx hy, notBorrow8_toNat _ _⟩
  · subst hx
    exact hvx ▸ s.difference_vf_left_toNat hy
  · subst hy
    rw [hvx, hvf hx]
    exact ⟨s.difference_vf_right_toNat hx, notBorrow8_toNat _ _⟩
  · subst hx hy
    exact hvx.trans (s.difference_self 15)

/-- Settles O23: the same difference with its operands exchanged. -/
theorem reverseSubtractSetsNotBorrow : Obligations.ReverseSubtractSetsNotBorrow := by
  refine ⟨fun _ _ => decode_subn, fun x y s => ?_⟩
  obtain ⟨t, hexec, hvx, hvf, hframe⟩ := exec_setFlag_setV_spec (exec_subn x y s)
  refine ⟨t, hexec, fun hx hy => ?_, fun hx hy => ?_, fun hx hy => ?_, fun hx hy => ?_, hframe⟩
  · rw [hvx, hvf hx]
    exact ⟨s.difference_toNat hy hx, notBorrow8_toNat _ _⟩
  · subst hx
    exact hvx ▸ s.difference_vf_right_toNat hy
  · subst hy
    rw [hvx, hvf hx]
    exact ⟨s.difference_vf_left_toNat hx, notBorrow8_toNat _ _⟩
  · subst hx hy
    exact hvx.trans (s.difference_self 15)

/-- Settles O22: the shift reads VF as the flag when X is F, and a flag shifted right is 0. -/
theorem shiftRightSetsTheBitOut : Obligations.ShiftRightSetsTheBitOut := by
  refine ⟨fun _ _ => decode_shr, fun _ _ _ _ => rfl, fun x y s => ?_⟩
  obtain ⟨t, hexec, hvx, hvf, hframe⟩ := exec_setFlag_setV_spec (exec_shr x y s)
  refine ⟨t, hexec, fun hx => ?_, fun hx => ?_, hframe⟩
  · rw [hvx, hvf hx, State.setFlag_V, if_neg hx]
    exact ⟨shr8_fst_toNat _, shr8_snd_toNat _⟩
  · subst hx
    rw [hvx, State.setFlag_V, if_pos rfl]
    cases (shr8 (s.V 15)).2 <;> rfl

/-- Settles O24: the shift reads VF as the flag when X is F, and a flag shifted left is 2 or 0. -/
theorem shiftLeftSetsTheBitOut : Obligations.ShiftLeftSetsTheBitOut := by
  refine ⟨fun _ _ => decode_shl, fun _ _ _ _ => rfl, fun x y s => ?_⟩
  obtain ⟨t, hexec, hvx, hvf, hframe⟩ := exec_setFlag_setV_spec (exec_shl x y s)
  refine ⟨t, hexec, fun hx => ?_, fun hx => ?_, hframe⟩
  · rw [hvx, hvf hx, State.setFlag_V, if_neg hx]
    exact ⟨shl8_fst_toNat _, shl8_snd_toNat _⟩
  · subst hx
    rw [hvx, State.setFlag_V, if_pos rfl, shl8_snd_eq, flagByte_decide]
    split <;> rfl

end Sys2Proof
end


section
/-! PROOFS. The framebuffer instructions (45_display.md R180-R187). A draw is one toggle for each
set bit of its sprite; the cells are all different, so the order of the toggles is free (R187). -/

namespace Sys2Proof

namespace Machine

/-! ## Toggling a list of cells -/

/-- One cell toggled, and the collision flag raised when it was 1. -/
def plotCell (acc : Framebuffer × Bool) (k : Nat) : Framebuffer × Bool :=
  (Framebuffer.toggle acc.1 k, acc.2 || Framebuffer.get acc.1 k)

/-- Different cells toggled one after another: each is inverted, no other changes, and a collision
is a cell that was 1 before the first toggle. -/
theorem foldl_plotCell {cells : List Nat} (hfb : ∀ k ∈ cells, k < 2048) (hdistinct : cells.Nodup)
    (acc : Framebuffer × Bool) :
    (∀ k, Framebuffer.get (cells.foldl plotCell acc).1 k =
      (Framebuffer.get acc.1 k ^^ decide (k ∈ cells))) ∧
    (cells.foldl plotCell acc).2 = (acc.2 || cells.any (Framebuffer.get acc.1)) := by
  induction cells generalizing acc with
  | nil => simp
  | cons c cells ih =>
    obtain ⟨hc, hcells⟩ := List.nodup_cons.mp hdistinct
    obtain ⟨hget, hflag⟩ :=
      ih (fun k hk => hfb k (List.mem_cons_of_mem _ hk)) hcells (plotCell acc c)
    have htoggle := Framebuffer.get_toggle acc.1 (hfb c List.mem_cons_self)
    rw [List.foldl_cons]
    constructor
    · intro k
      rw [hget, plotCell, htoggle]
      by_cases hk : k = c
      · simp [hk, hc]
      · simp [hk]
    · have hrest : cells.any (Framebuffer.get (plotCell acc c).1) =
          cells.any (Framebuffer.get acc.1) := by
        rw [Bool.eq_iff_iff, List.any_eq_true, List.any_eq_true]
        refine exists_congr fun k => and_congr_right fun hk => ?_
        have hk : k ≠ c := fun e => hc (e ▸ hk)
        simp [plotCell, htoggle, hk]
      rw [hflag, hrest, List.any_cons, plotCell, Bool.or_assoc]

/-! ## The cells of a sprite -/

/-- The cells of the set bits of one sprite row (R182, R183). -/
def rowCells (x0 line : Nat) (byte : Byte) : List Nat :=
  ((List.range 8).filter (spriteBit byte)).map fun b => pixelIndex ((x0 + b) % 64) (line % 32)

/-- The cells of the set bits of a sprite of `n` rows at I. -/
def State.spriteCells (s : State) (x0 y0 n : Nat) : List Nat :=
  (List.range n).flatMap fun r => rowCells x0 (y0 + r) (s.readByte (s.dataAddress r))

theorem plotRow_eq_foldl (x0 line : Nat) (byte : Byte) (acc : Framebuffer × Bool) :
    plotRow x0 line byte acc = (rowCells x0 line byte).foldl plotCell acc := by
  rw [rowCells, List.foldl_map, List.foldl_filter]
  rfl

/-- The blit toggles the cells of the sprite. -/
theorem State.blit_eq_foldl (s : State) (x0 y0 n : Nat) :
    s.blit x0 y0 n = (s.spriteCells x0 y0 n).foldl plotCell (s.fb, false) := by
  rw [State.spriteCells, List.foldl_flatMap]
  simp only [← plotRow_eq_foldl]
  rfl

theorem mem_rowCells {x0 line k : Nat} {byte : Byte} : k ∈ rowCells x0 line byte ↔
    ∃ b, b < 8 ∧ spriteBit byte b = true ∧ pixelIndex ((x0 + b) % 64) (line % 32) = k := by
  simp [rowCells, and_assoc]

theorem State.mem_spriteCells {s : State} {x0 y0 n k : Nat} : k ∈ s.spriteCells x0 y0 n ↔
    ∃ r b, r < n ∧ b < 8 ∧ spriteBit (s.readByte (s.dataAddress r)) b = true ∧
      pixelIndex ((x0 + b) % 64) ((y0 + r) % 32) = k := by
  simp [State.spriteCells, mem_rowCells]

/-- The cells of the sprite are the pixels that it hits. -/
theorem State.pixelIndex_mem_spriteCells {s : State} {x0 y0 n px py : Nat} (hx : px < 64) :
    pixelIndex px py ∈ s.spriteCells x0 y0 n ↔ s.SpriteHits x0 y0 n px py := by
  simp only [State.mem_spriteCells, State.SpriteHits,
    pixelIndex_inj (Nat.mod_lt _ (by decide : 64 > 0)) hx]
  rfl

theorem State.spriteCells_lt {s : State} {x0 y0 n k : Nat} (hk : k ∈ s.spriteCells x0 y0 n) :
    k < 2048 := by
  obtain ⟨r, b, -, -, -, rfl⟩ := State.mem_spriteCells.mp hk
  exact pixelIndex_lt (Nat.mod_lt _ (by decide)) (Nat.mod_lt _ (by decide))

theorem nodup_rowCells (x0 line : Nat) (byte : Byte) : (rowCells x0 line byte).Nodup := by
  refine List.Nodup.map_on (fun b hb b' hb' h => ?_) (List.nodup_range.filter _)
  have hb := List.mem_range.mp (List.mem_of_mem_filter hb)
  have hb' := List.mem_range.mp (List.mem_of_mem_filter hb')
  obtain ⟨hcol, -⟩ := (pixelIndex_inj (by omega) (by omega)).mp h
  omega

/-- A sprite has at most 8 columns and 15 rows, so no two of its bits wrap to one pixel. -/
theorem State.nodup_spriteCells (s : State) (x0 y0 : Nat) {n : Nat} (hn : n ≤ 32) :
    (s.spriteCells x0 y0 n).Nodup := by
  refine List.nodup_flatMap.mpr ⟨fun r _ => nodup_rowCells _ _ _, ?_⟩
  refine List.nodup_range.pairwise_of_forall_ne fun r hr r' hr' hne k hk hk' => ?_
  have hr := List.mem_range.mp hr
  have hr' := List.mem_range.mp hr'
  obtain ⟨b, -, -, rfl⟩ := mem_rowCells.mp hk
  obtain ⟨b', -, -, hcell⟩ := mem_rowCells.mp hk'
  obtain ⟨-, hline⟩ := (pixelIndex_inj (by omega) (by omega)).mp hcell
  omega

/-! ## The blit, as the pixels read -/

/-- The blit inverts the pixels that the sprite hits. -/
theorem State.get_blit (s : State) (x0 y0 : Nat) {n px py : Nat} (hn : n ≤ 32) (hx : px < 64)
    [Decidable (s.SpriteHits x0 y0 n px py)] :
    Framebuffer.get (s.blit x0 y0 n).1 (pixelIndex px py) =
      (s.pixel px py ^^ decide (s.SpriteHits x0 y0 n px py)) := by
  rw [State.blit_eq_foldl, (foldl_plotCell (fun _ => State.spriteCells_lt)
    (s.nodup_spriteCells x0 y0 hn) _).1]
  simp only [State.pixelIndex_mem_spriteCells hx]
  rfl

/-- The blit's flag is raised exactly when the sprite hits a pixel that is 1. -/
theorem State.blit_collides_iff (s : State) (x0 y0 : Nat) {n : Nat} (hn : n ≤ 32) :
    (s.blit x0 y0 n).2 = true ↔
      ∃ px py, px < 64 ∧ py < 32 ∧ s.pixel px py = true ∧ s.SpriteHits x0 y0 n px py := by
  rw [State.blit_eq_foldl, (foldl_plotCell (fun _ => State.spriteCells_lt)
    (s.nodup_spriteCells x0 y0 hn) _).2, Bool.false_or, List.any_eq_true]
  constructor
  · rintro ⟨k, hk, hset⟩
    obtain ⟨r, b, hr, hb, hbit, rfl⟩ := State.mem_spriteCells.mp hk
    exact ⟨_, _, Nat.mod_lt _ (by decide), Nat.mod_lt _ (by decide), hset, r, b, hr, hb, hbit, rfl,
      rfl⟩
  · rintro ⟨px, py, hx, hy, hset, hhit⟩
    exact ⟨_, (State.pixelIndex_mem_spriteCells hx).mpr hhit, hset⟩

theorem exec_cls (s : State) : exec .cls s = .next (s.present Framebuffer.clear).advance := rfl

end Machine

open Machine

/-- Settles O25: the execution presents the cleared framebuffer and advances. -/
theorem clearScreenClearsEveryPixel : Obligations.ClearScreenClearsEveryPixel := by
  refine ⟨decode_cls_iff, fun s => ?_⟩
  have hframe : UnchangedBut [.fb, .drawPending, .pc] s (s.present Framebuffer.clear) :=
    (UnchangedBut.refl _ s).trans (UnchangedBut.present s _) (by simp)
  exact ⟨_, exec_cls s, fun px py _ _ => Framebuffer.get_clear (pixelIndex px py), rfl, by simp,
    hframe.advance (by simp)⟩

/-- Settles O26: the execution presents the blitted framebuffer, whose pixels and flag are those of
the hit cells, writes the flag to VF and advances. -/
theorem drawTogglesSpritePixels : Obligations.DrawTogglesSpritePixels := by
  classical
  refine ⟨fun _ _ h => decode_of_class_drw (fieldClass_of_mask h), fun x y n s hbound => ?_⟩
  have hn : n.val ≤ 32 := by omega
  have hin : ¬(n.val > 0 ∧ s.dataOutOfBounds (n.val - 1)) := by
    rw [State.drawOutOfBounds_iff]
    omega
  have hframe : ∀ fb f, UnchangedBut [.v, .fb, .drawPending, .pc] s ((s.present fb).setFlag f) :=
    fun fb f =>
      ((UnchangedBut.refl _ s).trans (UnchangedBut.present s fb) (by simp)).setFlag (by simp) f
  refine ⟨_, exec_drw_of_inBounds x y hin, fun px py hx hy => ?_, fun hhit => ?_, fun hno => ?_,
    by simp, ?_, by simp, (hframe _ _).advance (by simp)⟩
  · have hpixel := s.get_blit ((s.V x).toNat % 64) ((s.V y).toNat % 32) hn hx (py := py)
    constructor
    · exact fun hhit => hpixel.trans (by simp [hhit])
    · exact fun hmiss => hpixel.trans (by simp [hmiss])
  · simp [flagByte, (s.blit_collides_iff _ _ hn).mpr hhit]
  · simp [flagByte, mt (s.blit_collides_iff _ _ hn).mp hno]
  · exact RegsUnchangedBut.setFlag (s.present _) _

end Sys2Proof
end


section
/-! PROOFS. The remaining instructions of `FULL_SET` (46_ext_full.md R203-R211) and the data bound
that they share with DRW (60_exceptions.md R236). -/

namespace Sys2Proof

namespace Machine

/-! ## The least pressed key (R204) -/

theorem State.leastPressedKey_eq_some {s : State} {k : Fin 16} (hk : s.keys[k.val] = true)
    (hleast : ∀ j : Fin 16, j < k → s.keys[j.val] = false) : s.leastPressedKey = some k.val := by
  refine List.findIdx?_eq_some_iff_getElem.mpr ⟨by simp, by simpa using hk, fun j hj => ?_⟩
  have hj' := hleast ⟨j, hj.trans k.isLt⟩ hj
  simpa using hj'

theorem State.leastPressedKey_eq_none {s : State} (h : ∀ j : Fin 16, s.keys[j.val] = false) :
    s.leastPressedKey = none := by
  refine List.findIdx?_eq_none_iff.mpr fun b hb => ?_
  obtain ⟨j, hj, rfl⟩ := List.mem_iff_getElem.mp hb
  have hj' := h ⟨j, by simpa using hj⟩
  simpa using hj'

theorem exec_ldVxK_of_some {x : VReg} {s : State} {k : Nat} (h : s.leastPressedKey = some k) :
    exec (.ldVxK x) s = .next (s.setV x (trunc8 k)).advance := by
  simp only [exec, execLdVxK, h]

theorem exec_ldVxK_of_none {x : VReg} {s : State} (h : s.leastPressedKey = none) :
    exec (.ldVxK x) s = .next s := by
  simp only [exec, execLdVxK, h]

/-! ## Timers and the index register -/

theorem exec_ldVxDt (x : VReg) (s : State) :
    exec (.ldVxDt x) s = .next (s.setV x s.dt).advance := rfl

theorem exec_ldDtVx_spec (x : VReg) (s : State) : ∃ t, exec (.ldDtVx x) s = .next t ∧
    t.dt = s.V x ∧ t.pc = s.pc + 2 ∧ UnchangedBut [.dt, .pc] s t := by
  refine ⟨{ s.advance with dt := s.V x }, rfl, rfl, State.advance_pc s, fun p hp => ?_⟩
  cases p
  case dt | pc => simp at hp
  all_goals simp [Part.Same, State.readByte]

theorem exec_ldStVx_spec (x : VReg) (s : State) : ∃ t, exec (.ldStVx x) s = .next t ∧
    t.st = s.V x ∧ t.pc = s.pc + 2 ∧ UnchangedBut [.st, .pc] s t := by
  refine ⟨{ s.advance with st := s.V x }, rfl, rfl, State.advance_pc s, fun p hp => ?_⟩
  cases p
  case st | pc => simp at hp
  all_goals simp [Part.Same, State.readByte]

theorem exec_addIVx (x : VReg) (s : State) :
    exec (.addIVx x) s = .next (s.setI (trunc16 (s.i.toNat + (s.V x).toNat))).advance := rfl

theorem exec_ldFVx (x : VReg) (s : State) :
    exec (.ldFVx x) s = .next (s.setI (s.glyphAddress x)).advance := rfl

/-- The glyph's address is inside the font, so it is not cut (R208). -/
theorem State.glyphAddress_toNat (s : State) (x : VReg) :
    (s.glyphAddress x).toNat = 0x050 + 5 * ((s.V x).toNat % 16) := by
  rw [State.glyphAddress, trunc16, BitVec.toNat_ofNat, Config.fontBase]
  omega

/-! ## Memory -/

/-- Bytes written from `a` on read back in order. -/
theorem State.writeBytes_readByte_getElem? (s : State) (a : Nat) {bs : List Byte} {k : Nat}
    {b : Byte} (h : bs[k]? = some b) : (s.writeBytes a bs).readByte (a + k) = b := by
  rw [State.writeBytes_readByte, if_pos (Nat.le_add_right a k), Nat.add_sub_cancel_left, h]
  rfl

/-- Every address outside the written bytes reads as before. -/
theorem State.writeBytes_readByte_outside (s : State) {a a' : Nat} {bs : List Byte}
    (h : a' < a ∨ a + bs.length ≤ a') : (s.writeBytes a bs).readByte a' = s.readByte a' := by
  rw [State.writeBytes_readByte]
  split
  · rw [List.getElem?_eq_none (by omega)]
    rfl
  · rfl

/-- An execution that writes bytes from I on and advances: they read back, every other address reads
as before, PC rises by 2, and nothing else changes. -/
theorem exec_writeBytes_spec {i : Instr} {s : State} {bs : List Byte}
    (hexec : exec i s = .next (s.writeBytes (s.dataAddress 0) bs).advance) :
    ∃ t, exec i s = .next t ∧
      (∀ (k : Nat) (b : Byte), bs[k]? = some b → t.readByte (s.dataAddress 0 + k) = b) ∧
      (∀ a : Nat, a < s.dataAddress 0 ∨ s.dataAddress 0 + bs.length ≤ a →
        t.readByte a = s.readByte a) ∧
      t.pc = s.pc + 2 ∧ UnchangedBut [.mem, .pc] s t :=
  ⟨_, hexec, fun _ _ hk => s.writeBytes_readByte_getElem? _ hk,
    fun _ ha => s.writeBytes_readByte_outside ha, by simp,
    ((UnchangedBut.refl _ s).trans (UnchangedBut.writeBytes s _ _) (by simp)).advance (by simp)⟩

theorem trunc8_toNat_of_lt {n : Nat} (h : n < 256) : (trunc8 n).toNat = n := by
  rw [trunc8, BitVec.toNat_ofNat]
  omega

theorem State.regsUpTo_getElem? (s : State) {x k : VReg} (h : k ≤ x) :
    (s.regsUpTo x)[k.val]? = some (s.V k) := by
  have hk : k.val < x.val + 1 := Nat.lt_succ_of_le h
  rw [State.regsUpTo, List.getElem?_take_of_lt hk]
  simp [State.V]

end Machine

open Machine

/-- Settles O28: each of the four meets its fatal condition, which it raises before any write. -/
theorem dataAccessPastMemoryHalts : Obligations.DataAccessPastMemoryHalts :=
  ⟨fun _ _ _ _ hn hbound => exec_of_fatalCondition (if_pos ⟨hn, hbound⟩),
    fun _ _ hbound => exec_of_fatalCondition (if_pos hbound),
    fun _ _ hbound => exec_of_fatalCondition (if_pos hbound),
    fun _ _ hbound => exec_of_fatalCondition (if_pos hbound)⟩

/-- Settles O30: the least pressed key is written to Vx, and with none the execution is the state
itself. -/
theorem waitForKeyPolls : Obligations.WaitForKeyPolls := by
  refine ⟨fun _ => decode_ldVxK, fun x s k hk hleast => ?_,
    fun x s hnone => exec_ldVxK_of_none (State.leastPressedKey_eq_none hnone)⟩
  obtain ⟨t, hexec, hvx, hframe⟩ :=
    exec_setV_spec (exec_ldVxK_of_some (x := x) (State.leastPressedKey_eq_some hk hleast))
  have hkey : (trunc8 k.val).toNat = k.val := trunc8_toNat_of_lt (by omega)
  exact ⟨t, hexec, hvx ▸ hkey, hframe⟩

/-- Settles O31: FX07 is one write of Vx, FX15 and FX18 one write of their timer. -/
theorem timerAccess : Obligations.TimerAccess :=
  ⟨fun _ => decode_ldVxDt, fun _ => decode_ldDtVx, fun _ => decode_ldStVx, fun x s =>
    ⟨exec_setV_spec (exec_ldVxDt x s), exec_ldDtVx_spec x s, exec_ldStVx_spec x s⟩⟩

/-- Settles O32: each execution is one write of I; the sum is cut to 16 bits and the glyph's address
is not. -/
theorem indexArithmetic : Obligations.IndexArithmetic := by
  refine ⟨fun _ => decode_addIVx, fun _ => decode_ldFVx, fun x s => ⟨?_, ?_⟩⟩
  · obtain ⟨t, hexec, hi, hframe⟩ := exec_setI_spec (exec_addIVx x s)
    exact ⟨t, hexec, hi ▸ BitVec.toNat_ofNat _ 16, hframe⟩
  · obtain ⟨t, hexec, hi, hframe⟩ := exec_setI_spec (exec_ldFVx x s)
    exact ⟨t, hexec, hi ▸ s.glyphAddress_toNat x, hframe⟩

/-- Settles O33: the execution writes the list of the three digits from I on. -/
theorem storeDecimalDigits : Obligations.StoreDecimalDigits := by
  refine ⟨fun _ => decode_ldBVx, fun x s hbound => ?_⟩
  have hlt := (s.V x).isLt
  obtain ⟨t, hexec, hwritten, houtside, hframe⟩ :=
    exec_writeBytes_spec (i := .ldBVx x) (s := s) (bs := bcdDigits (s.V x))
      (by rw [exec_ldBVx, if_neg (by omega)])
  refine ⟨t, hexec, rfl, ?_, ?_, ?_, fun a ha => houtside a ?_, hframe⟩
  · exact (congrArg BitVec.toNat (hwritten 0 _ rfl)).trans (trunc8_toNat_of_lt (by omega))
  · exact (congrArg BitVec.toNat (hwritten 1 _ rfl)).trans (trunc8_toNat_of_lt (by omega))
  · exact (congrArg BitVec.toNat (hwritten 2 _ rfl)).trans (trunc8_toNat_of_lt (by omega))
  · exact ha.imp_right Nat.succ_le_of_lt

/-- Settles O34: the execution writes the list of V0 to VX from I on. -/
theorem storeRegistersAtI : Obligations.StoreRegistersAtI := by
  refine ⟨fun _ => decode_storeRegs, fun x s hbound => ?_⟩
  obtain ⟨t, hexec, hwritten, houtside, hframe⟩ :=
    exec_writeBytes_spec (i := .storeRegs x) (s := s) (bs := s.regsUpTo x)
      (by rw [exec_storeRegs, if_neg (by omega)])
  refine ⟨t, hexec, rfl, fun k hk => hwritten k.val _ (s.regsUpTo_getElem? hk),
    fun a ha => houtside a ?_, hframe⟩
  rw [State.regsUpTo_length]
  exact ha.imp_right Nat.succ_le_of_lt

/-- Settles O35: the execution loads the registers up to X from I on and keeps the others. -/
theorem loadRegistersFromI : Obligations.LoadRegistersFromI := by
  refine ⟨fun _ => decode_loadRegs, fun x s hbound => ?_⟩
  have hframe : UnchangedBut [.v, .pc] s (s.loadRegsUpTo x) :=
    (UnchangedBut.refl _ s).trans (UnchangedBut.loadRegsUpTo s x) (by simp)
  refine ⟨(s.loadRegsUpTo x).advance, by rw [exec_loadRegs, if_neg (by omega)], fun k hk => ?_,
    fun k hk => ?_, by simp, hframe.advance (by simp)⟩
  · exact (s.loadRegsUpTo_V x k).trans (if_pos hk)
  · exact (s.loadRegsUpTo_V x k).trans (if_neg (not_le.mpr hk))

end Sys2Proof
end

section
/-! PROOFS. The host's transactions RESET, LOAD, CLEAR_DRAW and the reads (70_reset_and_hazards.md
R271, R274, 60_exceptions.md R249). -/

namespace Sys2Proof

namespace Machine

theorem transact_reset (s : State) : transact .reset s = .next (s.resetBlock, .done) := rfl

/-- After RESET an address reads as the reset contents. -/
theorem State.resetBlock_readByte (s : State) (a : Nat) :
    s.resetBlock.readByte a = Memory.unlisted s.params.font a := rfl

theorem Memory.unlisted_font (font : Font) (g : Fin 80) :
    Memory.unlisted font (0x050 + g.val) = font[g.val] := by
  have hfont : Config.fontBase ≤ 0x050 + g.val ∧ 0x050 + g.val < Config.fontBase + 80 := by
    rw [Config.fontBase]
    omega
  rw [Memory.unlisted, dif_pos hfont]
  simp [Config.fontBase]

theorem Memory.unlisted_outside_font (font : Font) {a : Nat} (h : a < 0x050 ∨ 0x0A0 ≤ a) :
    Memory.unlisted font a = 0 := by
  have hfont : ¬(Config.fontBase ≤ a ∧ a < Config.fontBase + 80) := by
    rw [Config.fontBase]
    omega
  rw [Memory.unlisted, dif_neg hfont]

theorem transact_load_of_fits (s : State) {bytes : List Byte} (h : bytes.length ≤ 3584) :
    transact (.load bytes) s = .next (s.writeBytes 0x200 bytes, .loaded) := by
  rw [transact_load, s.load_of_fits h,
    if_neg fun hlong => Nat.not_lt.mpr h ((programTooLong_iff bytes).mp hlong)]

end Machine

open Machine

/-- Settles O47: RESET answers the reset values, and memory that lists no cell reads as the reset
contents. -/
theorem resetSetsEveryField : Obligations.ResetSetsEveryField := by
  intro s
  refine ⟨s.resetBlock, transact_reset s, fun x => ?_, rfl, rfl, rfl, rfl, rfl, fun j => ?_,
    fun k => ?_, fun px py _ _ => Framebuffer.get_clear (pixelIndex px py), rfl, rfl,
    fun g => ?_, fun a _ ha => ?_⟩
  · exact Vector.getElem_replicate x.isLt
  · exact Vector.getElem_replicate j.isLt
  · exact Vector.getElem_replicate k.isLt
  · rw [s.resetBlock_readByte, Memory.unlisted_font]
  · rw [s.resetBlock_readByte, Memory.unlisted_outside_font _ ha]

/-- Settles O48: an accepted LOAD writes its bytes from 0x200 on and nothing else. -/
theorem loadCopiesTheProgram : Obligations.LoadCopiesTheProgram := fun _ s hfits =>
  ⟨_, transact_load_of_fits s hfits, fun _ _ hj => s.writeBytes_readByte_getElem? 0x200 hj,
    fun _ ha => s.writeBytes_readByte_outside ha, UnchangedBut.writeBytes s 0x200 _⟩

/-- Settles O51: the reads answer a field of the state itself, and memory is another field than the
framebuffer. -/
theorem hostReadsAndClearDraw : Obligations.HostReadsAndClearDraw := fun s =>
  ⟨rfl, rfl, rfl, ⟨s.clearDraw, rfl, rfl, UnchangedBut.clearDraw s⟩, fun a b => s.writeByte_fb a b⟩

end Sys2Proof
end
